-- ==== Sys2Proof/Word.lean ====
section
/-! DEFINITION. The bit vectors of the block: 8-bit bytes and 32-bit register values (R8, R23, R30). -/

namespace Sys2Proof

/-- A byte of the ByteSequence: an "8-bit unsigned value" (R30). -/
abbrev Byte := BitVec 8

/-- A register value, a command word, an offset or an index: 32 bits, unsigned (R8, R23, R70, R76). -/
abbrev Word := BitVec 32

end Sys2Proof
end

