-- ==== Sys2Proof/Syntax.lean ====
section
/-! DEFINITION. The commands of spec/opcode_table.json, one constructor per row (R72, R75). -/

namespace Sys2Proof

/-- The five legal commands of R75. None has an operand field left open: each row of the table fixes all 32 bits. -/
inductive Instr where
  /-- NOP, R93. -/
  | nop
  /-- COMPUTE 8, R94, R95, R102. -/
  | compute8
  /-- COMPUTE 16, R94, R95, R103. -/
  | compute16
  /-- COMPUTE 32, R94, R95, R104. -/
  | compute32
  /-- CLEAR, R96. -/
  | clear
deriving DecidableEq, Repr

end Sys2Proof
end

