-- ==== Sys2Proof/WellFormed.lean ====
section
/-! DEFINITION. The fields of a command word (R71) and the checks that make them a legal command (R72, R73, R75). -/

namespace Sys2Proof

/-- The three fields of a command word (R71). -/
structure CommandFields where
  /-- OP, bits 7:0. -/
  op : BitVec 8
  /-- WIDTH, bits 15:8. -/
  width : BitVec 8
  /-- RSVD, bits 31:16. -/
  rsvd : BitVec 16
deriving DecidableEq, Repr

/-- RSVD is "reserved, must be 0" (R71). -/
def CommandFields.rsvdIsZero (f : CommandFields) : Bool := f.rsvd == 0#16

/-- "The values 0x03 to 0xFF are reserved" (R72). -/
def CommandFields.opIsDefined (f : CommandFields) : Bool := f.op == 0x00#8 || f.op == 0x01#8 || f.op == 0x02#8

/-- WIDTH is 8, 16 or 32 for COMPUTE and 0 for every other OP (R71, R73). -/
def CommandFields.widthIsLegal (f : CommandFields) : Bool :=
  if f.op == 0x01#8 then f.width == 8#8 || f.width == 16#8 || f.width == 32#8 else f.width == 0#8

/-- The fields are those of one of the five legal command words (R75). -/
def CommandFields.wf (f : CommandFields) : Bool := f.rsvdIsZero && f.opIsDefined && f.widthIsLegal

/-- The field values of each command (R72, R75; the column `source_fields` of the opcode table). -/
def Instr.fields : Instr → CommandFields
  | .nop       => { op := 0x00#8, width := 0x00#8, rsvd := 0#16 }
  | .compute8  => { op := 0x01#8, width := 0x08#8, rsvd := 0#16 }
  | .compute16 => { op := 0x01#8, width := 0x10#8, rsvd := 0#16 }
  | .compute32 => { op := 0x01#8, width := 0x20#8, rsvd := 0#16 }
  | .clear     => { op := 0x02#8, width := 0x00#8, rsvd := 0#16 }

/-- An instruction is well formed when its fields pass every check. -/
def Instr.wf (i : Instr) : Bool := i.fields.wf

end Sys2Proof
end

