-- ==== Sys2Proof/Decode.lean ====
section
/-! DEFINITION. Decoding of the 32-bit command word (R70 to R75), total on all 2^32 words and rejecting by name, and the
encoder written from the same table. -/

namespace Sys2Proof

/-- What a command word decodes to (R74): a command, or one of the two named rejections. -/
inductive Decoded where
  /-- One of the five legal command words (R75). -/
  | command (i : Instr)
  /-- `Illegal`: raises ILLEGAL_CMD when issued while the ENGINE is idle (R74, R161). -/
  | illegal
  /-- `Domain`: COMPUTE with an invalid width, raises DOMAIN when issued while the ENGINE is idle (R73, R74, R161). -/
  | domain
deriving DecidableEq, Repr

/-- OP = `v[7:0]` (R71). -/
def opField (v : Word) : BitVec 8 := v.extractLsb' 0 8

/-- WIDTH = `v[15:8]` (R71). -/
def widthField (v : Word) : BitVec 8 := v.extractLsb' 8 8

/-- RSVD = `v[31:16]` (R71). -/
def rsvdField (v : Word) : BitVec 16 := v.extractLsb' 16 16

/-- The width operand of COMPUTE (R73): `wf in {8, 16, 32}`, each of the three a row of the opcode table. -/
def decodeCompute (wf : BitVec 8) : Decoded :=
  if wf = 8#8 then .command .compute8
  else if wf = 16#8 then .command .compute16
  else if wf = 32#8 then .command .compute32
  else .domain

/-- `decode(v)` with the precedence of R74. -/
def decode (v : Word) : Decoded :=
  if rsvdField v ≠ 0#16 then .illegal
  else if opField v = 0x00#8 then (if widthField v = 0#8 then .command .nop else .illegal)
  else if opField v = 0x02#8 then (if widthField v = 0#8 then .command .clear else .illegal)
  else if opField v = 0x01#8 then decodeCompute (widthField v)
  else .illegal

/-- A command word laid out from its fields, RSVD highest and OP lowest (R71). -/
def CommandFields.word (f : CommandFields) : Word := f.rsvd ++ f.width ++ f.op

/-- The command word of each command (R75). -/
def encode (i : Instr) : Word := i.fields.word

/-- The instruction the decoder reads from a command word whose low `nbits` bits are `w`, every bit above them 0. The
block has one 32-bit word per command and moves it as one value, so it has no byte order (R52, R70). -/
def decodeTableWord (nbits w : Nat) : Option Instr :=
  match decode (BitVec.ofNat 32 (w % 2 ^ nbits)) with
  | .command i => some i
  | .illegal => none
  | .domain => none

end Sys2Proof
end

