-- ==== Sys2Proof/Config.lean ====
section
/-! DEFINITION. The parameters of the block (R7): the one the spec fixes, and the two it leaves open, as opaque
constants that no proof can see through. -/

namespace Sys2Proof

/-- PAD_BYTE, the filler byte, "value `0x58`, ASCII 'X'" (R7, R121; log entry 11). -/
def Config.padByte : Byte := 0x58#8

/-- MAX_LEN, the capacity of the input buffer: OPEN, any value with 0 <= MAX_LEN <= 2^32 - 4 (R7, D4; log entry 6). -/
opaque Config.maxLen : Fin 4294967293

/-- INBUF_RESET, the contents of the input buffer after a reset: OPEN, any byte values, a draw per byte
(R7, R183, I1; log entry 5). The first argument numbers the reset, the second is the index. -/
opaque Config.inbufReset : Nat → Nat → Byte

end Sys2Proof
end

