-- ==== Sys2Proof/Machine/State.lean ====
section
/-! DEFINITION. The state of the block (R21): the host-visible registers, the input buffer, the internal registers; and the
model's own three fields for the HOST's side and the draw of INBUF_RESET. Plain data throughout. -/

namespace Sys2Proof.Machine

/-- The checksum width, "enumerated value in {8, 16, 32}" (R7, R37). -/
inductive Width where
  | w8 | w16 | w32
deriving DecidableEq, Repr

/-- STAGE (R36). -/
inductive Stage where
  | idle | pad | agg | fin
deriving DecidableEq, Repr

/-- The fields of STATUS (R31). Bits 31:8 are reserved, read 0 and are stored nowhere. -/
structure Status where
  /-- Bit 0, BUSY (R32). -/
  busy : Bool
  /-- Bit 1, DONE (R33). -/
  done : Bool
  /-- Bit 2, ERR (R34). -/
  err : Bool
  /-- Bit 3, BUSYERR, sticky (R35). -/
  busyErr : Bool
  /-- Bits 7:4, ERRCODE (R34, R161). -/
  errCode : BitVec 4
deriving DecidableEq, Repr

/-- The command errors of R161. They are effects of the block (a next state), not faults of the model. -/
inductive CmdError where
  | illegalCmd | domain | length
deriving DecidableEq, Repr

/-- The seven registers of the register space (R23). -/
inductive RegName where
  | cmd | len | status | acc | result | count | maxLen
deriving DecidableEq, Repr

/-- The five host operations (R76). Offsets and indices are 32-bit unsigned. -/
inductive HostOp where
  | regRead (off : Word)
  | regWrite (off v : Word)
  | bufRead (i : Word)
  | bufWrite (i : Word) (b : Byte)
  | reset
deriving DecidableEq, Repr

/-- One transition of a run: a turn of the ENGINE or one host operation (R20, R61; log entry 1). -/
inductive Turn where
  | engine
  | host (op : HostOp)
deriving DecidableEq, Repr

/-- What a read of the HOST returned (R97, R99; log entry 4). -/
inductive Reply where
  | reg (off v : Word)
  | buf (i : Word) (b : Byte)
deriving DecidableEq, Repr

/-- INBUF as the bytes written since the last reset: (index, byte) pairs, indices strictly rising. An index below MAX_LEN
that is not listed holds its draw of INBUF_RESET (R30, R183; log entry 5). -/
abbrev Memory := List Host.Cell

/-- The state of the block and of the model's HOST side. -/
structure State where
  /-- LEN, offset 0x04 (R25). -/
  len : Word
  /-- STATUS, offset 0x08 (R31). -/
  status : Status
  /-- ACC, offset 0x0C, the 32-bit accumulator (R28). -/
  acc : Word
  /-- RESULT, offset 0x10 (R26). -/
  result : Word
  /-- COUNT, offset 0x14 (R27). -/
  count : Word
  /-- MAXLEN, offset 0x18, constant (R29). -/
  maxLen : Word
  /-- INBUF (R30). -/
  inbuf : Memory
  /-- STAGE (R36). -/
  stage : Stage
  /-- WIDTH_L, the latched width (R37). -/
  widthL : Width
  /-- LEN_L, the latched length (R38). -/
  lenL : Word
  /-- PADN, the number of filler bytes (R39). -/
  padN : BitVec 2
  /-- PLEN, the padded length (R39). -/
  pLen : Word
  /-- POS, the index of the next word's first byte (R40). -/
  pos : Word
  /-- The model's own: how many Resets were performed, which numbers the draw of INBUF_RESET (log entry 5). -/
  resets : Nat
  /-- The model's own: the turns still to come, first one first (log entries 1, 2). -/
  agenda : List Turn
  /-- The model's own: the values the HOST's reads returned, newest first (log entry 4). -/
  replies : List Reply
deriving DecidableEq, Repr

/-- The faults of the model: none. The spec gives every command, host operation and engine step an effect in every state
(R74, R91, R135), so nothing stops the machine and no constructor is raised by anything (log entry 12). -/
inductive Fault where
deriving DecidableEq, Repr

/-- The refusals of the model. -/
inductive Refusal where
  /-- An instruction with no meaning in the model, raised by a rejected arm of exec only; safe. No arm raises it: every
  row of the opcode table has its meaning. -/
  | notModelled (mnemonic : String)
deriving DecidableEq, Repr

/-- STATUS at reset: every field 0 (R31, R180). -/
def Status.reset : Status := { busy := false, done := false, err := false, busyErr := false, errCode := 0#4 }

/-- The machine right after reset (R180, R182), at power-up: "the state the block powers up in is the state after a
Reset". MAXLEN is the parameter MAX_LEN, INBUF is unspecified, the HOST has performed nothing yet. -/
def State.reset : State :=
  { len := 0#32, status := Status.reset, acc := 0#32, result := 0#32, count := 0#32
    maxLen := BitVec.ofNat 32 Config.maxLen.val, inbuf := []
    stage := .idle, widthL := .w8, lenL := 0#32, padN := 0#2, pLen := 0#32, pos := 0#32
    resets := 0, agenda := [], replies := [] }

end Sys2Proof.Machine
end

