-- ==== Sys2Proof/Machine/Flags.lean ====
section
/-! DEFINITION. Every computation on the flags of STATUS: the word a read returns, and what each event writes (R31 to R35,
R161, R162). -/

namespace Sys2Proof.Machine

/-- The word a RegRead of STATUS returns (R31, R97):
`zext_32(ERRCODE << 4 | BUSYERR << 3 | ERR << 2 | DONE << 1 | BUSY)`. -/
def Status.word (st : Status) : Word :=
  st.errCode.zeroExtend 32 <<< 4 ||| (BitVec.ofBool st.busyErr).zeroExtend 32 <<< 3
    ||| (BitVec.ofBool st.err).zeroExtend 32 <<< 2 ||| (BitVec.ofBool st.done).zeroExtend 32 <<< 1
    ||| (BitVec.ofBool st.busy).zeroExtend 32

/-- The codes of R161; 0 is NONE and 4 to 15 are never produced. -/
def CmdError.code : CmdError → BitVec 4
  | .illegalCmd => 1#4
  | .domain => 2#4
  | .length => 3#4

/-- A command error: ERR and ERRCODE set, DONE cleared, BUSY and BUSYERR kept (R162). -/
def Status.raised (e : CmdError) (st : Status) : Status := { st with err := true, errCode := e.code, done := false }

/-- The acceptance of a COMPUTE: BUSY set, DONE, ERR and ERRCODE cleared, BUSYERR kept (R95). -/
def Status.accepted (st : Status) : Status := { st with busy := true, done := false, err := false, errCode := 0#4 }

/-- The FIN step: BUSY cleared, DONE set, the error fields kept (R133). -/
def Status.finished (st : Status) : Status := { st with busy := false, done := true }

/-- CLEAR: every field but BUSY cleared (R96). -/
def Status.cleared (st : Status) : Status :=
  { st with done := false, err := false, busyErr := false, errCode := 0#4 }

/-- The busy discard: BUSYERR set, nothing else (R35, R164). -/
def Status.discarded (st : Status) : Status := { st with busyErr := true }

end Sys2Proof.Machine
end

