-- ==== Sys2Proof/Machine/Ops.lean ====
section
/-! DEFINITION. The named operations over the buffer and the registers: MemRead and MemWrite (R51), the register offsets
(R23), the value a register reads as (R97), raising a command error (R162), the busy discard (R164), and Reset (R180). -/

namespace Sys2Proof.Machine

/-- The byte written at index `i` since the last reset, if any. -/
def Memory.lookup (i : Nat) : Memory → Option Byte
  | [] => none
  | c :: m => if c.1 = i then some c.2 else Memory.lookup i m

/-- The buffer with byte `b` written at index `i`, indices kept strictly rising. -/
def Memory.insert (i : Nat) (b : Byte) : Memory → Memory
  | [] => [(i, b)]
  | c :: m =>
    if c.1 < i then c :: Memory.insert i b m
    else if c.1 = i then (i, b) :: m
    else (i, b) :: c :: m

/-- Indices strictly rising, from `lo` on and below `cap`. -/
def Memory.wfFrom (lo cap : Nat) : Memory → Bool
  | [] => true
  | c :: m => decide (lo ≤ c.1) && decide (c.1 < cap) && Memory.wfFrom (c.1 + 1) cap m

/-- The canonical form of INBUF: indices strictly rising and below the capacity (R30, R50). An unlisted index has no value
written since the reset, so no entry can repeat what an unlisted one stands for (log entry 5). -/
def Memory.wf (cap : Nat) (m : Memory) : Bool := Memory.wfFrom 0 cap m

/-- What an index below MAX_LEN that nothing has written since the last reset holds: its draw of INBUF_RESET
(R30, R183, I1; log entry 5). -/
def unwritten (i : Nat) (s : State) : Byte := Config.inbufReset s.resets i

/-- `MemRead(i, 1)`: INBUF[i] when i < MAX_LEN, else 0x00 (R51). -/
def memRead (i : Nat) (s : State) : Byte :=
  if i < s.maxLen.toNat then (s.inbuf.lookup i).getD (unwritten i s) else 0x00#8

/-- `MemWrite(i, 1, b)`: INBUF[i] <- b when i < MAX_LEN, else no effect (R51). -/
def memWrite (i : Nat) (b : Byte) (s : State) : State :=
  { s with inbuf := if i < s.maxLen.toNat then s.inbuf.insert i b else s.inbuf }

/-- The offset of each register (R23). -/
def RegName.offset : RegName → Word
  | .cmd => 0x00#32
  | .len => 0x04#32
  | .status => 0x08#32
  | .acc => 0x0C#32
  | .result => 0x10#32
  | .count => 0x14#32
  | .maxLen => 0x18#32

/-- The register at an offset; none at a misaligned offset (R53) and at a reserved one (R54). -/
def RegName.ofOffset (off : Word) : Option RegName :=
  if off = 0x00#32 then some .cmd
  else if off = 0x04#32 then some .len
  else if off = 0x08#32 then some .status
  else if off = 0x0C#32 then some .acc
  else if off = 0x10#32 then some .result
  else if off = 0x14#32 then some .count
  else if off = 0x18#32 then some .maxLen
  else none

/-- The value a register reads as; CMD stores nothing and reads 0 (R24, R97). -/
def regValue (s : State) : RegName → Word
  | .cmd => 0x00000000#32
  | .len => s.len
  | .status => s.status.word
  | .acc => s.acc
  | .result => s.result
  | .count => s.count
  | .maxLen => s.maxLen

/-- The value `RegRead(off)` returns (R97). -/
def regRead (off : Word) (s : State) : Word :=
  match RegName.ofOffset off with
  | some r => regValue s r
  | none => 0x00000000#32

/-- A write of LEN: the register stores the value unchanged (R25). -/
def setLen (v : Word) (s : State) : State := { s with len := v }

/-- `raise CmdError(code)`, the block's only exceptional event besides the busy discard: ERR, ERRCODE and DONE are
written, everything else is kept; there is no trap, no saved state and no transfer of control (R162, R166). -/
def raiseError (e : CmdError) (s : State) : State := { s with status := s.status.raised e }

/-- The busy discard: BUSYERR is set, everything else is kept (R164, R185). -/
def discard (s : State) : State := { s with status := s.status.discarded }

/-- A command takes its effect `act` when STATUS.BUSY = 0 and is discarded when STATUS.BUSY = 1 (R92). -/
def whenIdle (act : State → State) (s : State) : State := if s.status.busy then discard s else act s

/-- The HOST receives a value; the block does not change (R59; log entry 4). -/
def reply (r : Reply) (s : State) : State := { s with replies := r :: s.replies }

/-- The effect of `Reset`, whatever the state before (R180, R181). MAXLEN is a constant, INBUF takes the next draw of
INBUF_RESET, and the HOST's own lists are no part of the block. -/
def resetBlock (s : State) : State :=
  { State.reset with maxLen := s.maxLen, resets := s.resets + 1, agenda := s.agenda, replies := s.replies }

end Sys2Proof.Machine
end

