-- ==== Sys2Proof/Machine/Commands.lean ====
section
/-! DEFINITION. The meanings of NOP (R93) and CLEAR (R96). -/

namespace Sys2Proof.Machine

/-- NOP: no state changes while idle; discarded while busy (R92, R93). -/
def execNop (s : State) : Host.Outcome State Fault Refusal := .next (whenIdle (fun t => t) s)

/-- The effect of an accepted CLEAR (R96). -/
def clearResults (s : State) : State :=
  { s with acc := 0#32, result := 0#32, count := 0#32, status := s.status.cleared }

/-- CLEAR: the result registers and every STATUS field but BUSY to 0 while idle; discarded while busy (R92, R96). -/
def execClear (s : State) : Host.Outcome State Fault Refusal := .next (whenIdle clearResults s)

end Sys2Proof.Machine
end

