-- ==== Sys2Proof/Machine/Compute.lean ====
section
/-! DEFINITION. The meanings of COMPUTE 8, 16 and 32: the issue with its LENGTH check (R94) and the acceptance (R95). The
computation itself is the engine steps of Machine/Engine.lean. -/

namespace Sys2Proof.Machine

/-- The acceptance of a COMPUTE with width w (R95): BUSYERR, RESULT, COUNT, LEN, INBUF, PADN, PLEN and POS are kept. -/
def acceptCompute (w : Width) (s : State) : State :=
  { s with widthL := w, lenL := s.len, acc := 0#32, stage := .pad, status := s.status.accepted }

/-- The issue of a COMPUTE whose width is legal (R94): LENGTH when LEN > MAX_LEN, else acceptance. -/
def issueCompute (w : Width) (s : State) : State :=
  if s.maxLen.toNat < s.len.toNat then raiseError .length s else acceptCompute w s

/-- COMPUTE 8 (R94, R95; its outcome after FIN is R102); discarded while busy (R92). -/
def execCompute8 (s : State) : Host.Outcome State Fault Refusal := .next (whenIdle (issueCompute .w8) s)

/-- COMPUTE 16 (R94, R95; its outcome after FIN is R103); discarded while busy (R92). -/
def execCompute16 (s : State) : Host.Outcome State Fault Refusal := .next (whenIdle (issueCompute .w16) s)

/-- COMPUTE 32 (R94, R95; its outcome after FIN is R104); discarded while busy (R92). -/
def execCompute32 (s : State) : Host.Outcome State Fault Refusal := .next (whenIdle (issueCompute .w32) s)

/-- The COMPUTE command of each width (R73). -/
def Width.command : Width → Instr
  | .w8 => .compute8
  | .w16 => .compute16
  | .w32 => .compute32

end Sys2Proof.Machine
end

