-- ==== Sys2Proof/Machine/Dispatch.lean ====
section
/-! DEFINITION. exec: one arm per command of the opcode table. -/

namespace Sys2Proof.Machine

def exec (i : Instr) (s : State) : Host.Outcome State Fault Refusal :=
  match i with
  | .nop => Sys2Proof.Machine.execNop s
  | .compute8 => Sys2Proof.Machine.execCompute8 s
  | .compute16 => Sys2Proof.Machine.execCompute16 s
  | .compute32 => Sys2Proof.Machine.execCompute32 s
  | .clear => Sys2Proof.Machine.execClear s

end Sys2Proof.Machine
end

