-- ==== Sys2Proof/Machine/Operands.lean ====
section
/-! DEFINITION. What the width operand stands for (word size and mask, R7, R73) and the operand bytes of the data path:
padding (R121, R122), word assembly (R124, R125), accumulation (R126, R127). -/

namespace Sys2Proof.Machine

/-- The width in bits (R7). -/
def Width.bits : Width → Nat
  | .w8 => 8
  | .w16 => 16
  | .w32 => 32

/-- NB(w), the word size in bytes (R7). -/
def Width.nb : Width → Nat
  | .w8 => 1
  | .w16 => 2
  | .w32 => 4

/-- MASK(w) (R7). -/
def Width.mask : Width → Word
  | .w8 => 0x000000FF#32
  | .w16 => 0x0000FFFF#32
  | .w32 => 0xFFFFFFFF#32

/-- pad(n, w), the pad count (R121). -/
def padCount (n : Nat) : Width → Nat
  | .w8 => 0
  | .w16 => n % 2
  | .w32 => (4 - n % 4) % 4

/-- V(i), byte i of the padded sequence: from INBUF below LEN_L, a filler byte from there on (R122). -/
def padByteAt (s : State) (i : Nat) : Byte := if i < s.lenL.toNat then memRead i s else Config.padByte

/-- The OR of the terms j = 0 .. k-1 of Word(S, pos, nb, avail) (R124). -/
def wordTerms (S : Nat → Byte) (pos nb avail : Nat) : Nat → Word
  | 0 => 0#32
  | j + 1 =>
    wordTerms S pos nb avail j
      ||| (if j < avail then S (pos + j) else 0x00#8).zeroExtend 32 <<< (8 * (nb - 1 - j))

/-- Word(S, pos, nb, avail): big-endian, with zeros for the bytes not present (R124, R125; log entry 9). -/
def wordAt (S : Nat → Byte) (pos nb avail : Nat) : Word := wordTerms S pos nb avail nb

/-- One accumulation: addition modulo 2^32, then, at width 8 only, the 8-bit mask (R126, R127). -/
def accumulate (w : Width) (acc word : Word) : Word :=
  if w = .w8 then (acc + word) &&& 0x000000FF#32 else acc + word

end Sys2Proof.Machine
end

