-- ==== Sys2Proof/Machine/Engine.lean ====
section
/-! DEFINITION. The engine steps PAD (R130), AGG (R131) and FIN (R133). -/

namespace Sys2Proof.Machine

/-- The PAD step (R130). -/
def padStep (s : State) : State :=
  { s with
    padN := BitVec.ofNat 2 (padCount s.lenL.toNat s.widthL)
    pLen := s.lenL + BitVec.ofNat 32 (padCount s.lenL.toNat s.widthL)
    pos := 0#32
    stage := if s.lenL = 0#32 then .fin else .agg }

/-- `avail = min(nb, PLEN - POS)` (R131); nb in every reachable state (R125; log entry 10). -/
def availBytes (s : State) : Nat := min s.widthL.nb (s.pLen.toNat - s.pos.toNat)

/-- The word the AGG step adds: Word(V, POS, nb, avail) (R131). -/
def nextWord (s : State) : Word := wordAt (padByteAt s) s.pos.toNat s.widthL.nb (availBytes s)

/-- The AGG step, one word per step (R131). -/
def aggStep (s : State) : State :=
  { s with
    acc := accumulate s.widthL s.acc (nextWord s)
    pos := s.pos + BitVec.ofNat 32 s.widthL.nb
    stage := if s.pLen.toNat ≤ s.pos.toNat + s.widthL.nb then .fin else .agg }

/-- The FIN step (R133): the final mask, the result, the unpadded count. The other internal registers keep their values
(R41; log entry 8). -/
def finStep (s : State) : State :=
  { s with
    acc := s.acc &&& s.widthL.mask
    result := s.acc &&& s.widthL.mask
    count := s.lenL
    status := s.status.finished
    stage := .idle }

/-- A turn of the ENGINE: the step of its stage; at IDLE it has no enabled step and nothing changes (R130, R175;
log entry 2). -/
def engineStep (s : State) : State :=
  match s.stage with
  | .idle => s
  | .pad => padStep s
  | .agg => aggStep s
  | .fin => finStep s

end Sys2Proof.Machine
end

