-- ==== Sys2Proof/Machine/HostOps.lean ====
section
/-! DEFINITION. The host operations (R92, R97 to R101) and one turn of a run: a host operation or an engine step. -/

namespace Sys2Proof.Machine

/-- Command issue, `RegWrite(0x00, v)` (R92): discarded undecoded while busy, else the command, or the error of a word
that is none. -/
def issue (v : Word) (s : State) : Host.Outcome State Fault Refusal :=
  if s.status.busy then .next (discard s)
  else
    match decode v with
    | .command i => exec i s
    | .illegal => .next (raiseError .illegalCmd s)
    | .domain => .next (raiseError .domain s)

/-- `RegWrite(off, v)` (R98): no effect at a misaligned, reserved or read-only offset. -/
def regWrite (off v : Word) (s : State) : Host.Outcome State Fault Refusal :=
  match RegName.ofOffset off with
  | some .cmd => issue v s
  | some .len => .next (whenIdle (setLen v) s)
  | some .status => .next s
  | some .acc => .next s
  | some .result => .next s
  | some .count => .next s
  | some .maxLen => .next s
  | none => .next s

/-- `BufWrite(i, b)` (R100). -/
def bufWrite (i : Word) (b : Byte) (s : State) : State := whenIdle (memWrite i.toNat b) s

/-- One host operation (R76). The value of a read goes to the HOST (log entry 4). -/
def hostOp (op : HostOp) (s : State) : Host.Outcome State Fault Refusal :=
  match op with
  | .regRead off => .next (reply (.reg off (regRead off s)) s)
  | .regWrite off v => regWrite off v s
  | .bufRead i => .next (reply (.buf i (memRead i.toNat s)) s)
  | .bufWrite i b => .next (bufWrite i b s)
  | .reset => .next (resetBlock s)

/-- One turn: an indivisible transition of one agent (R58, R61). -/
def takeTurn (t : Turn) (s : State) : Host.Outcome State Fault Refusal :=
  match t with
  | .engine => .next (engineStep s)
  | .host op => hostOp op s

/-- The next turn of a run and the turns left: the first of the agenda, or, when the HOST has nothing left to do, the
ENGINE's (weak fairness, R132; log entry 2). -/
def scheduled : List Turn → Turn × List Turn
  | [] => (.engine, [])
  | t :: ts => (t, ts)

end Sys2Proof.Machine
end

