-- ==== Sys2Proof/Machine/Step.lean ====
section
/-! DEFINITION. One step of a run, and the placing of a command word where the next step takes it. -/

namespace Sys2Proof.Machine

/-- One step: the scheduled turn is taken off the agenda and performed (R61; log entries 1, 2). -/
def step (s : State) : Host.Outcome State Fault Refusal :=
  takeTurn (scheduled s.agenda).1 { s with agenda := (scheduled s.agenda).2 }

/-- `s` with the HOST's next operation the issue of the command word whose low `nbits` bits are `w`: the block fetches
nothing, a command runs when the HOST writes it to CMD (R66, R70; log entry 7). -/
def State.withFetchWord (s : State) (nbits w : Nat) : State :=
  { s with agenda := .host (.regWrite 0x00#32 (BitVec.ofNat 32 (w % 2 ^ nbits))) :: s.agenda }

end Sys2Proof.Machine
end

