-- ==== Sys2Proof/Machine/HostProgram.lean ====
section
/-! DEFINITION. The syntax of host programs (R77) and their pseudo-operations (R78), as the host operations they stand for,
and the digits a HOST prints for a result (R106). These are the HOST's: the block only ever sees the operations. -/

namespace Sys2Proof.Machine

/-- One line of a host program (R77). The variable a read assigns is the HOST's own and is not named here: the value
comes back as a Reply. -/
inductive HostLine where
  | nop
  | compute (w : Byte)
  | clear
  | cmd (v : Word)
  | wr (off v : Word)
  | rd (off : Word)
  | wb (i : Word) (b : Byte)
  | rb (i : Word)
  | reset
deriving DecidableEq, Repr

/-- The host operation a line stands for (R77). -/
def HostLine.op : HostLine → HostOp
  | .nop => .regWrite 0x00#32 0x00000000#32
  | .compute w => .regWrite 0x00#32 (w.zeroExtend 32 <<< 8 ||| 0x01#32)
  | .clear => .regWrite 0x00#32 0x00000002#32
  | .cmd v => .regWrite 0x00#32 v
  | .wr off v => .regWrite off v
  | .rd off => .regRead off
  | .wb i b => .bufWrite i b
  | .rb i => .bufRead i
  | .reset => .reset

/-- The WB lines of LOAD, from index `i` on (R78). -/
def writeLines (i : Nat) : List Byte → List HostLine
  | [] => []
  | b :: bs => .wb (BitVec.ofNat 32 i) b :: writeLines (i + 1) bs

/-- `LOAD [b0, ..., b(n-1)]` (R78). -/
def loadLines (bs : List Byte) : List HostLine :=
  writeLines 0 bs ++ [.wr RegName.len.offset (BitVec.ofNat 32 bs.length)]

/-- `POLL` whose loop reads STATUS `k` times: the branch is the HOST's, and k may be any finite number (R78, R108, R187;
log entry 13). -/
def pollLines (k : Nat) : List HostLine := List.replicate k (.rd RegName.status.offset)

/-- `CSUM w, [b0, ..., b(n-1)]` whose POLL reads STATUS `k` times (R78). -/
def csumLines (w : Byte) (bs : List Byte) (k : Nat) : List HostLine :=
  loadLines bs ++ [.compute w] ++ pollLines k ++ [.rd RegName.result.offset, .rd RegName.count.offset]

/-- The agenda of a host program with one ENGINE turn count per line: `ks` says how many turns the ENGINE has before each
line; a missing count is 0 (R61; log entry 1). -/
def scheduleLines : List Nat → List HostLine → List Turn
  | _, [] => []
  | [], l :: ls => .host l.op :: scheduleLines [] ls
  | k :: ks, l :: ls => List.replicate k .engine ++ .host l.op :: scheduleLines ks ls

/-- The `width/4` hexadecimal digits of a result, most significant first (R106). -/
def reportDigits (w : Width) (r : Word) : List (BitVec 4) :=
  (List.range (w.bits / 4)).map (fun k => r.extractLsb' (4 * (w.bits / 4 - 1 - k)) 4)

end Sys2Proof.Machine
end

