-- ==== Sys2Proof/Machine/Reference.lean ====
section
/-! DEFINITION. The reference function Checksum(B, w) of R128, which the engine steps compute (R134). -/

namespace Sys2Proof.Machine

/-- The padded sequence P = B ++ repeat(0x58, pad(n, w)) (R122). -/
def padded (B : List Byte) (w : Width) : List Byte := B ++ List.replicate (padCount B.length w) Config.padByte

/-- N, the number of words of the padded sequence (R128, R132). -/
def wordCount (n : Nat) (w : Width) : Nat := (n + padCount n w) / w.nb

/-- W_k, the k-th word of the padded sequence (R124, R129). -/
def wordOf (B : List Byte) (w : Width) (k : Nat) : Word :=
  wordAt (fun i => (padded B w).getD i 0x00#8) (k * w.nb) w.nb w.nb

/-- `acc` of R128's loop after its k-th iteration. -/
def sumAfter (B : List Byte) (w : Width) : Nat → Word
  | 0 => 0#32
  | k + 1 => accumulate w (sumAfter B w k) (wordOf B w k)

/-- Checksum(B, w) (R128). -/
def checksum (B : List Byte) (w : Width) : Word := sumAfter B w (wordCount B.length w) &&& w.mask

/-- The ByteSequence of length n held in the buffer: [INBUF[0], ..., INBUF[n-1]] (R30). -/
def inputBytes (s : State) (n : Nat) : List Byte := (List.range n).map (fun i => memRead i s)

end Sys2Proof.Machine
end

