-- ==== Sys2Proof/Safety.lean ====
section
/-! DEFINITION. The terms claims are stated in: the events of a step, the error causes of R161, the invariants of R42 and of
R39, R131 and R134, and the outcome of several ENGINE turns. -/

namespace Sys2Proof.Machine

/-- The turn the next step takes: the first of the agenda, or the ENGINE's (log entry 2). -/
def State.turn (s : State) : Turn := s.agenda.headD .engine

/-- The next step is the issue of the word `v` while BUSY = 0 (R92). -/
def State.issues (s : State) (v : Word) : Prop := s.turn = .host (.regWrite 0x00#32 v) ∧ s.status.busy = false

/-- The next step is the acceptance of a COMPUTE with width w (R94, R95). -/
def State.accepts (s : State) (w : Width) : Prop := s.issues (encode w.command) ∧ s.len.toNat ≤ s.maxLen.toNat

/-- The next step is an accepted CLEAR (R96). -/
def State.clears (s : State) : Prop := s.issues 0x00000002#32

/-- The next step is a Reset (R101). -/
def State.resetting (s : State) : Prop := s.turn = .host .reset

/-- The next step is the ENGINE's, at the given stage (R130). -/
def State.engineAt (s : State) (g : Stage) : Prop := s.turn = .engine ∧ s.stage = g

/-- The next step is a host write that is discarded because BUSY = 1: to CMD, to LEN or to INBUF (R164, R185). -/
def State.discards (s : State) : Prop :=
  s.status.busy = true ∧
    ((∃ v, s.turn = .host (.regWrite 0x00#32 v)) ∨ (∃ v, s.turn = .host (.regWrite 0x04#32 v)) ∨
      ∃ i b, s.turn = .host (.bufWrite i b))

/-- The cause of ILLEGAL_CMD (R161): RSVD /= 0, a reserved OP, or OP 0x00 or 0x02 with WIDTH /= 0. -/
def IllegalWord (v : Word) : Prop :=
  rsvdField v ≠ 0#16 ∨ 3 ≤ (opField v).toNat ∨ ((opField v = 0#8 ∨ opField v = 2#8) ∧ widthField v ≠ 0#8)

/-- The cause of DOMAIN (R161): OP = 0x01, RSVD = 0 and WIDTH not in {8, 16, 32}. -/
def DomainWord (v : Word) : Prop :=
  opField v = 1#8 ∧ rsvdField v = 0#16 ∧ widthField v ≠ 8#8 ∧ widthField v ≠ 16#8 ∧ widthField v ≠ 32#8

/-- The next step raises the command error `e`, by the causes of R161. -/
def State.errs (s : State) : CmdError → Prop
  | .illegalCmd => ∃ v, s.issues v ∧ IllegalWord v
  | .domain => ∃ v, s.issues v ∧ DomainWord v
  | .length => ∃ w : Width, s.issues (encode w.command) ∧ s.maxLen.toNat < s.len.toNat

/-- The invariants of R42, with what keeps them: the bound of MAX_LEN (R7), the codes of R161, ACC = 0 before the first
word (R95), PADN and PLEN as the PAD step wrote them (R39), and the canonical form of INBUF. -/
structure State.Inv (s : State) : Prop where
  /-- MAX_LEN <= 2^32 - 4 (R7). -/
  maxLen_le : s.maxLen.toNat ≤ 2 ^ 32 - 4
  /-- INBUF keeps its canonical form (R30, R50). -/
  inbuf_wf : s.inbuf.wf s.maxLen.toNat = true
  /-- R42 (a). -/
  busy_iff : s.status.busy = true ↔ s.stage ≠ .idle
  /-- R42 (b). -/
  busy_done : ¬(s.status.busy = true ∧ s.status.done = true)
  /-- R42 (c). -/
  err_iff : s.status.err = true ↔ s.status.errCode ≠ 0#4
  /-- The codes 4 to 15 are never produced (R161). -/
  errCode_le : s.status.errCode.toNat ≤ 3
  /-- ACC is 0 between acceptance and the first word (R95, R130). -/
  acc_pad : s.stage = .pad → s.acc = 0#32
  /-- R42 (d). -/
  acc_w8 : s.stage = .agg ∨ s.stage = .fin → s.widthL = .w8 → s.acc.toNat ≤ 0xFF
  /-- R39: PADN and PLEN of the current computation. -/
  padded_len : s.stage = .agg ∨ s.stage = .fin →
    s.padN.toNat = padCount s.lenL.toNat s.widthL ∧ s.pLen.toNat = s.lenL.toNat + s.padN.toNat
  /-- R42 (e). -/
  agg_pos : s.stage = .agg →
    s.pLen.toNat % s.widthL.nb = 0 ∧ s.pos.toNat % s.widthL.nb = 0 ∧ s.pos.toNat < s.pLen.toNat
  /-- R42 (f): while DONE = 1, WIDTH_L is the width of the last completed COMPUTE. -/
  done_result : s.status.done = true → s.result.toNat < 2 ^ s.widthL.bits ∧ s.result = s.acc
  /-- R42 (g). -/
  lenL_le : s.stage ≠ .idle → s.lenL.toNat ≤ s.maxLen.toNat

/-- While a computation runs ACC is the running value of R128's loop over the words already added (R134). -/
structure State.Sums (s : State) : Prop where
  /-- At AGG: the words before POS. -/
  agg_sum : s.stage = .agg →
    s.acc = sumAfter (inputBytes s s.lenL.toNat) s.widthL (s.pos.toNat / s.widthL.nb)
  /-- At FIN: every word. -/
  fin_sum : s.stage = .fin →
    s.acc = sumAfter (inputBytes s s.lenL.toNat) s.widthL (wordCount s.lenL.toNat s.widthL)

/-- `k` ENGINE turns one after the other. -/
def engineTurns : Nat → State → State
  | 0, s => s
  | k + 1, s => engineTurns k (engineStep s)

end Sys2Proof.Machine
end

