-- ==== Sys2Proof/Certificates/Slice0/Obligations.lean ====
section
/-! DEFINITION. The statements for the provers, from the numbered rules of spec/. Each docstring names the rule or the
section it formalises; OBLIGATIONS.json gives each its tier and its basis. -/

open Sys2Proof Sys2Proof.Machine

/-! ## Encoding -/

/-- A few command words written out from the field layout of R71 and the table of 30_encoding.md section 3. -/
def Obligations.CommandWordsDecode : Prop :=
  decode 0b00000000000000000000000000000000#32 = .command .nop ∧
  decode 0b00000000000000000000100000000001#32 = .command .compute8 ∧
  decode 0b00000000000000000001000000000001#32 = .command .compute16 ∧
  decode 0b00000000000000000010000000000001#32 = .command .compute32 ∧
  decode 0b00000000000000000000000000000010#32 = .command .clear ∧
  decode 0b00000000000000000001100000000001#32 = .domain ∧
  decode 0b00000000000000010000100000000001#32 = .illegal ∧
  decode 0b00000000000000000000000100000010#32 = .illegal

/-- R74: decoding, total on all words, with its precedence; and the error each rejection raises when the word is issued
while the ENGINE is idle. -/
def Obligations.DecodePrecedence : Prop :=
  ∀ v : Word,
    (v.extractLsb' 16 16 ≠ 0#16 → decode v = .illegal) ∧
    (v.extractLsb' 16 16 = 0#16 →
      (v.extractLsb' 0 8 = 0x00#8 → v.extractLsb' 8 8 = 0#8 → decode v = .command .nop) ∧
      (v.extractLsb' 0 8 = 0x00#8 → v.extractLsb' 8 8 ≠ 0#8 → decode v = .illegal) ∧
      (v.extractLsb' 0 8 = 0x02#8 → v.extractLsb' 8 8 = 0#8 → decode v = .command .clear) ∧
      (v.extractLsb' 0 8 = 0x02#8 → v.extractLsb' 8 8 ≠ 0#8 → decode v = .illegal) ∧
      (v.extractLsb' 0 8 = 0x01#8 → v.extractLsb' 8 8 = 8#8 → decode v = .command .compute8) ∧
      (v.extractLsb' 0 8 = 0x01#8 → v.extractLsb' 8 8 = 16#8 → decode v = .command .compute16) ∧
      (v.extractLsb' 0 8 = 0x01#8 → v.extractLsb' 8 8 = 32#8 → decode v = .command .compute32) ∧
      (v.extractLsb' 0 8 = 0x01#8 → v.extractLsb' 8 8 ≠ 8#8 → v.extractLsb' 8 8 ≠ 16#8 → v.extractLsb' 8 8 ≠ 32#8 →
        decode v = .domain) ∧
      (v.extractLsb' 0 8 ≠ 0x00#8 → v.extractLsb' 0 8 ≠ 0x01#8 → v.extractLsb' 0 8 ≠ 0x02#8 → decode v = .illegal)) ∧
    ∀ s : State, s.status.busy = false →
      (decode v = .illegal →
        issue v s = .next { s with status := { s.status with err := true, errCode := 1#4, done := false } }) ∧
      (decode v = .domain →
        issue v s = .next { s with status := { s.status with err := true, errCode := 2#4, done := false } })

/-- 30_encoding.md section 3: of the 2^32 words exactly five are commands, each command exactly one word (decode and encode
agree in both directions). -/
def Obligations.LegalWordsAreExactlyTheFive : Prop :=
  ∀ (v : Word) (i : Instr), decode v = .command i ↔ v = encode i

/-- 60_exceptions.md section 1, the table of causes: which words raise ILLEGAL_CMD and which DOMAIN. -/
def Obligations.ErrorWordCauses : Prop :=
  ∀ v : Word, (decode v = .illegal ↔ IllegalWord v) ∧ (decode v = .domain ↔ DomainWord v)

/-! ## Commands -/

/-- R93: NOP changes nothing while idle, is discarded while busy; a word with OP 0 and a nonzero WIDTH or RSVD is no NOP. -/
def Obligations.NopEffect : Prop :=
  encode .nop = 0x00000000#32 ∧
  ∀ s : State,
    (s.status.busy = false → exec .nop s = .next s) ∧
    (s.status.busy = true → exec .nop s = .next { s with status := { s.status with busyErr := true } }) ∧
    ∀ v : Word, s.status.busy = false → v.extractLsb' 0 8 = 0x00#8 →
      v.extractLsb' 8 8 ≠ 0#8 ∨ v.extractLsb' 16 16 ≠ 0#16 →
      issue v s = .next { s with status := { s.status with err := true, errCode := 1#4, done := false } }

/-- R96: CLEAR while idle and while busy, right after reset, and as the only way to clear BUSYERR short of reset. -/
def Obligations.ClearEffect : Prop :=
  encode .clear = 0x00000002#32 ∧
  (∀ s : State,
    (s.status.busy = false → exec .clear s = .next
      { s with
        acc := 0#32, result := 0#32, count := 0#32
        status := { s.status with done := false, err := false, errCode := 0#4, busyErr := false } }) ∧
    (s.status.busy = true → exec .clear s = .next { s with status := { s.status with busyErr := true } })) ∧
  exec .clear State.reset = .next State.reset ∧
  ∀ s t : State, step s = .next t → s.status.busyErr = true → t.status.busyErr = false → s.clears ∨ s.resetting

/-- R95: the acceptance of a COMPUTE, by width; from then on the ENGINE has an enabled step until its FIN step (or a
Reset). -/
def Obligations.ComputeAccepted : Prop :=
  (∀ s t : State, step s = .next t → s.stage ≠ .idle → ¬s.engineAt .fin → ¬s.resetting → t.stage ≠ .idle) ∧
  ∀ s : State, s.status.busy = false → s.len.toNat ≤ s.maxLen.toNat →
    exec .compute8 s = .next
      { s with
        widthL := .w8, lenL := s.len, acc := 0#32, stage := .pad
        status := { s.status with busy := true, done := false, err := false, errCode := 0#4 } } ∧
    exec .compute16 s = .next
      { s with
        widthL := .w16, lenL := s.len, acc := 0#32, stage := .pad
        status := { s.status with busy := true, done := false, err := false, errCode := 0#4 } } ∧
    exec .compute32 s = .next
      { s with
        widthL := .w32, lenL := s.len, acc := 0#32, stage := .pad
        status := { s.status with busy := true, done := false, err := false, errCode := 0#4 } }

/-- R94: the checks of a COMPUTE issue, in their order: RSVD, then the width, then LEN against MAX_LEN, then acceptance. -/
def Obligations.ComputeIssueChecks : Prop :=
  ∀ (s : State) (v : Word), s.status.busy = false → v.extractLsb' 0 8 = 0x01#8 →
    (v.extractLsb' 16 16 ≠ 0#16 →
      issue v s = .next { s with status := { s.status with err := true, errCode := 1#4, done := false } }) ∧
    (v.extractLsb' 16 16 = 0#16 → (∀ w : Width, (v.extractLsb' 8 8).toNat ≠ w.bits) →
      issue v s = .next { s with status := { s.status with err := true, errCode := 2#4, done := false } }) ∧
    ∀ w : Width, v.extractLsb' 16 16 = 0#16 → (v.extractLsb' 8 8).toNat = w.bits →
      (s.maxLen.toNat < s.len.toNat →
        issue v s = .next { s with status := { s.status with err := true, errCode := 3#4, done := false } }) ∧
      (s.len.toNat ≤ s.maxLen.toNat →
        issue v s = .next
          { s with
            widthL := w, lenL := s.len, acc := 0#32, stage := .pad
            status := { s.status with busy := true, done := false, err := false, errCode := 0#4 } })

/-- R162: what raising a command error writes, and that it writes nothing else, for every cause of R161. -/
def Obligations.CommandErrorEffect : Prop :=
  ∀ (s : State) (e : CmdError), s.errs e →
    step s = .next
      { s with
        agenda := s.agenda.tail
        status := { s.status with
          err := true
          errCode := (match e with | .illegalCmd => 1#4 | .domain => 2#4 | .length => 3#4)
          done := false } }

/-- 40_commands.md and 20_memory.md section 3: what no command changes, whatever the state: LEN, MAXLEN, every byte of
INBUF, PADN, PLEN, POS and the HOST's own lists; RESULT and COUNT but for CLEAR; the latched values, STAGE and BUSY but for
the COMPUTEs; everything but BUSYERR for NOP. -/
def Obligations.CommandFrame : Prop :=
  ∀ (i : Instr) (s t : State), exec i s = .next t →
    (t.len = s.len ∧ t.maxLen = s.maxLen ∧ (∀ a, memRead a t = memRead a s) ∧ t.padN = s.padN ∧ t.pLen = s.pLen ∧
      t.pos = s.pos ∧ t.agenda = s.agenda ∧ t.replies = s.replies) ∧
    (i ≠ .clear → t.result = s.result ∧ t.count = s.count) ∧
    (i = .nop ∨ i = .clear →
      t.widthL = s.widthL ∧ t.lenL = s.lenL ∧ t.stage = s.stage ∧ t.status.busy = s.status.busy) ∧
    (i = .nop → t.acc = s.acc ∧ t.status.done = s.status.done ∧ t.status.err = s.status.err ∧
      t.status.errCode = s.status.errCode)

/-- R92: a step whose turn is the write of a word to CMD runs the decoded command on the state with the turn taken off the
agenda; while BUSY = 1 the word is discarded undecoded. -/
def Obligations.StepRunsIssuedCommand : Prop :=
  ∀ (s : State) (v : Word) (rest : List Turn), s.agenda = .host (.regWrite 0x00#32 v) :: rest →
    (s.status.busy = true →
      step s = .next { s with agenda := rest, status := { s.status with busyErr := true } }) ∧
    (s.status.busy = false →
      (∀ i : Instr, decode v = .command i → step s = exec i { s with agenda := rest }) ∧
      (decode v = .illegal → step s = .next
        { s with agenda := rest, status := { s.status with err := true, errCode := 1#4, done := false } }) ∧
      (decode v = .domain → step s = .next
        { s with agenda := rest, status := { s.status with err := true, errCode := 2#4, done := false } }))

/-- 20_memory.md section 5 and 30_encoding.md section 1: a command runs by being written to CMD. A word placed by
withFetchWord is what the next step issues: it runs exactly that command. -/
def Obligations.FetchedWordRuns : Prop :=
  ∀ (s : State) (w : Nat) (i : Instr), decodeTableWord 32 w = some i → step (s.withFetchWord 32 w) = exec i s

/-! ## Host operations -/

/-- R97: the value of a RegRead at every offset; nothing of the block changes (the reply list is the model's own). -/
def Obligations.RegReadValues : Prop :=
  ∀ (s : State) (off : Word),
    takeTurn (.host (.regRead off)) s = .next
      { s with
        replies := .reg off
          (if off.toNat % 4 ≠ 0 ∨ 0x18 < off.toNat then 0#32
          else if off.toNat = 0x04 then s.len
          else if off.toNat = 0x08 then
            BitVec.ofNat 32 (s.status.errCode.toNat <<< 4 ||| s.status.busyErr.toNat <<< 3
              ||| s.status.err.toNat <<< 2 ||| s.status.done.toNat <<< 1 ||| s.status.busy.toNat)
          else if off.toNat = 0x0C then s.acc
          else if off.toNat = 0x10 then s.result
          else if off.toNat = 0x14 then s.count
          else if off.toNat = 0x18 then s.maxLen
          else 0#32) :: s.replies }

/-- 10_state.md section 5: the bits of the word a read of STATUS returns. -/
def Obligations.StatusWordBits : Prop :=
  ∀ (s : State), (regRead 0x08#32 s).getLsbD 0 = s.status.busy ∧ (regRead 0x08#32 s).getLsbD 1 = s.status.done ∧
    (regRead 0x08#32 s).getLsbD 2 = s.status.err ∧ (regRead 0x08#32 s).getLsbD 3 = s.status.busyErr ∧
    (regRead 0x08#32 s).extractLsb' 4 4 = s.status.errCode ∧ (regRead 0x08#32 s).extractLsb' 8 24 = 0#24

/-- R98: the effect of a RegWrite at every offset. -/
def Obligations.RegWriteEffects : Prop :=
  ∀ (s : State) (off v : Word),
    (off.toNat % 4 ≠ 0 ∨ 0x18 < off.toNat → takeTurn (.host (.regWrite off v)) s = .next s) ∧
    (off.toNat = 0x00 → takeTurn (.host (.regWrite off v)) s = issue v s) ∧
    (off.toNat = 0x04 → s.status.busy = true →
      takeTurn (.host (.regWrite off v)) s = .next { s with status := { s.status with busyErr := true } }) ∧
    (off.toNat = 0x04 → s.status.busy = false → takeTurn (.host (.regWrite off v)) s = .next { s with len := v }) ∧
    (off.toNat = 0x08 ∨ off.toNat = 0x0C ∨ off.toNat = 0x10 ∨ off.toNat = 0x14 ∨ off.toNat = 0x18 →
      takeTurn (.host (.regWrite off v)) s = .next s)

/-- R100: BufWrite. In range, the byte at its index reads as written and every other byte reads as before; nothing but
INBUF changes. -/
def Obligations.BufWriteEffect : Prop :=
  ∀ (s : State) (i : Word) (b : Byte),
    (s.status.busy = true →
      takeTurn (.host (.bufWrite i b)) s = .next { s with status := { s.status with busyErr := true } }) ∧
    (s.status.busy = false → i.toNat < s.maxLen.toNat →
      ∃ m : Memory, takeTurn (.host (.bufWrite i b)) s = .next { s with inbuf := m } ∧
        memRead i.toNat { s with inbuf := m } = b ∧
        ∀ j, j ≠ i.toNat → memRead j { s with inbuf := m } = memRead j s) ∧
    (s.status.busy = false → s.maxLen.toNat ≤ i.toNat → takeTurn (.host (.bufWrite i b)) s = .next s)

/-- R99: BufRead returns the byte, 0 out of range, changes nothing of the block in any state, and is the byte the ENGINE
sees. -/
def Obligations.BufReadEffect : Prop :=
  ∀ (s : State) (i : Word),
    takeTurn (.host (.bufRead i)) s = .next { s with replies := .buf i (memRead i.toNat s) :: s.replies } ∧
    (s.maxLen.toNat ≤ i.toNat → memRead i.toNat s = 0x00#8) ∧
    (i.toNat < s.lenL.toNat → padByteAt s i.toNat = memRead i.toNat s)

/-- R59: reads change nothing of the block and give the same value again; a write of LEN and a BufWrite are idempotent; a
command is not; a write to a read-only or reserved location has no effect. -/
def Obligations.SideEffects : Prop :=
  (∀ (s : State) (off : Word), ∃ r, takeTurn (.host (.regRead off)) s = .next { s with replies := r :: s.replies }) ∧
  (∀ (s : State) (i : Word), ∃ r, takeTurn (.host (.bufRead i)) s = .next { s with replies := r :: s.replies }) ∧
  (∀ (s : State) (off i : Word) (rs : List Reply), regRead off { s with replies := rs } = regRead off s ∧
    memRead i.toNat { s with replies := rs } = memRead i.toNat s) ∧
  (∀ (s t : State) (v : Word), takeTurn (.host (.regWrite 0x04#32 v)) s = .next t →
    takeTurn (.host (.regWrite 0x04#32 v)) t = .next t) ∧
  (∀ (s t : State) (i : Word) (b : Byte), takeTurn (.host (.bufWrite i b)) s = .next t →
    takeTurn (.host (.bufWrite i b)) t = .next t) ∧
  (∃ s t u : State, exec .compute8 s = .next t ∧ exec .compute8 t = .next u ∧ u ≠ t) ∧
  (∀ (s : State) (off v : Word), off ≠ 0x00#32 → off ≠ 0x04#32 → takeTurn (.host (.regWrite off v)) s = .next s)

/-- R185: while BUSY = 1 a write to CMD, to LEN or to INBUF only sets BUSYERR; other writes have no effect and do not set
it; reads are never discarded. -/
def Obligations.BusyWritesDiscarded : Prop :=
  ∀ s : State, s.status.busy = true →
    (∀ v, takeTurn (.host (.regWrite 0x00#32 v)) s =
      .next { s with status := { s.status with busyErr := true } }) ∧
    (∀ v, takeTurn (.host (.regWrite 0x04#32 v)) s =
      .next { s with status := { s.status with busyErr := true } }) ∧
    (∀ i b, takeTurn (.host (.bufWrite i b)) s =
      .next { s with status := { s.status with busyErr := true } }) ∧
    (∀ off v, off ≠ 0x00#32 → off ≠ 0x04#32 → takeTurn (.host (.regWrite off v)) s = .next s) ∧
    (∀ off, takeTurn (.host (.regRead off)) s =
      .next { s with replies := .reg off (regRead off s) :: s.replies }) ∧
    (∀ i, takeTurn (.host (.bufRead i)) s =
      .next { s with replies := .buf i (memRead i.toNat s) :: s.replies })

/-- R180: Reset sets every register whatever the state before, keeps the constant MAXLEN, and the power-up state has the
same values. INBUF is unspecified and the statement says nothing of it. -/
def Obligations.ResetValues : Prop :=
  (∀ s : State, ∃ t, takeTurn (.host .reset) s = .next t ∧ t.maxLen = s.maxLen) ∧
  (State.reset.maxLen.toNat = Config.maxLen.val) ∧
  ∀ t : State, (t = State.reset ∨ ∃ s, takeTurn (.host .reset) s = .next t) →
    t.len = 0#32 ∧ regRead 0x08#32 t = 0x00000000#32 ∧ t.status.busy = false ∧ t.status.done = false ∧
    t.status.err = false ∧ t.status.busyErr = false ∧ t.status.errCode = 0#4 ∧ t.acc = 0#32 ∧ t.result = 0#32 ∧
    t.count = 0#32 ∧ t.stage = .idle ∧ t.widthL = .w8 ∧ t.lenL = 0#32 ∧ t.padN = 0#2 ∧ t.pLen = 0#32 ∧ t.pos = 0#32

/-- R181: a Reset abandons a computation: no ENGINE turn after it does anything; it is the only way to stop one, CLEAR
cannot. -/
def Obligations.ResetAbandonsComputation : Prop :=
  (∀ s : State, ∃ t, takeTurn (.host .reset) s = .next t ∧ t.status.busy = false ∧ ∀ k, engineTurns k t = t) ∧
  (∀ s t : State, step s = .next t → s.status.busy = true → t.status.busy = false →
    s.engineAt .fin ∨ s.resetting) ∧
  ∀ s t : State, s.status.busy = true → exec .clear s = .next t → t.status.busy = true ∧ t.stage = s.stage

/-! ## Engine steps -/

/-- 41_pipeline.md section 3: the ENGINE has an enabled step exactly when STAGE is not IDLE, and the PAD step of R130. The
model's choices: a turn at IDLE changes nothing (log entry 2); PLEN is kept modulo 2^32 where the exact sum of R130 does
not fit 32 bits, which no run reaches (log entry 10). -/
def Obligations.PadStepEffect : Prop :=
  ∀ s : State,
    (s.stage = .idle → takeTurn .engine s = .next s) ∧
    (s.stage ≠ .idle → ∃ t, takeTurn .engine s = .next t ∧ t ≠ s) ∧
    (s.stage = .pad → takeTurn .engine s = .next
      { s with
        padN := BitVec.ofNat 2 (padCount s.lenL.toNat s.widthL)
        pLen := BitVec.ofNat 32 (s.lenL.toNat + padCount s.lenL.toNat s.widthL)
        pos := 0#32
        stage := if s.lenL.toNat = 0 then .fin else .agg })

/-- 41_pipeline.md section 3: the AGG step of R131. The model's choices, in states no run reaches (log entry 10): POS is
kept modulo 2^32, and PLEN - POS counts as 0 where POS is above PLEN. -/
def Obligations.AggStepEffect : Prop :=
  ∀ s : State, s.stage = .agg →
    takeTurn .engine s = .next
      { s with
        acc :=
          if s.widthL = .w8 then
            (s.acc + wordAt (padByteAt s) s.pos.toNat 1 (min 1 (s.pLen.toNat - s.pos.toNat))) &&& 0xFF#32
          else
            s.acc + wordAt (padByteAt s) s.pos.toNat s.widthL.nb (min s.widthL.nb (s.pLen.toNat - s.pos.toNat))
        pos := BitVec.ofNat 32 (s.pos.toNat + s.widthL.nb)
        stage := if s.pos.toNat + s.widthL.nb ≥ s.pLen.toNat then .fin else s.stage }

/-- 41_pipeline.md section 1 and 20_memory.md section 2: in a state that meets the invariants every word is full, and the
AGG step adds the big-endian word of the width's bytes. -/
def Obligations.AggStepAddsFullWord : Prop :=
  ∀ s : State, s.Inv → s.stage = .agg →
    s.pos.toNat + s.widthL.nb ≤ s.pLen.toNat ∧
    ∃ t, takeTurn .engine s = .next t ∧
      (s.widthL = .w8 → t.acc = (s.acc + (padByteAt s s.pos.toNat).zeroExtend 32) &&& 0xFF#32) ∧
      (s.widthL = .w16 → t.acc = s.acc +
        ((padByteAt s s.pos.toNat).zeroExtend 32 <<< 8 ||| (padByteAt s (s.pos.toNat + 1)).zeroExtend 32)) ∧
      (s.widthL = .w32 → t.acc = s.acc +
        ((padByteAt s s.pos.toNat).zeroExtend 32 <<< 24 ||| (padByteAt s (s.pos.toNat + 1)).zeroExtend 32 <<< 16
          ||| (padByteAt s (s.pos.toNat + 2)).zeroExtend 32 <<< 8
          ||| (padByteAt s (s.pos.toNat + 3)).zeroExtend 32))

/-- 41_pipeline.md section 1, word assembly: the full words, their bound, and the partial word, whose missing low
bytes are zero. -/
def Obligations.WordAssembly : Prop :=
  ∀ (S : Nat → Byte) (pos : Nat),
    wordAt S pos 1 1 = (S pos).zeroExtend 32 ∧
    wordAt S pos 2 2 = (S pos).zeroExtend 32 <<< 8 ||| (S (pos + 1)).zeroExtend 32 ∧
    wordAt S pos 4 4 = (S pos).zeroExtend 32 <<< 24 ||| (S (pos + 1)).zeroExtend 32 <<< 16
      ||| (S (pos + 2)).zeroExtend 32 <<< 8 ||| (S (pos + 3)).zeroExtend 32 ∧
    (∀ (w : Width) (avail : Nat), (wordAt S pos w.nb avail).toNat < 2 ^ w.bits) ∧
    (∀ (w : Width) (avail : Nat), avail < w.nb →
      wordAt S pos w.nb avail = wordAt (fun i => if i < pos + avail then S i else 0x00#8) pos w.nb w.nb)

/-- R133: the FIN step. -/
def Obligations.FinStepEffect : Prop :=
  ∀ s : State, s.stage = .fin →
    takeTurn .engine s = .next
      { s with
        acc := s.acc &&& (match s.widthL with | .w8 => 0xFF#32 | .w16 => 0xFFFF#32 | .w32 => 0xFFFFFFFF#32)
        result := s.acc &&& (match s.widthL with | .w8 => 0xFF#32 | .w16 => 0xFFFF#32 | .w32 => 0xFFFFFFFF#32)
        count := s.lenL
        status := { s.status with busy := false, done := true }
        stage := .idle }

/-- R135: no engine step raises an error; every error is raised at a command issue. -/
def Obligations.EngineRaisesNoError : Prop :=
  (∀ s : State, ∃ t, takeTurn .engine s = .next t ∧ t.status.err = s.status.err ∧
    t.status.errCode = s.status.errCode) ∧
  ∀ s t : State, step s = .next t → s.status.err = false → t.status.err = true →
    ∃ v, s.issues v

/-- 41_pipeline.md section 3 and 10_state.md section 4: what no engine step changes: LEN, MAXLEN, every byte of INBUF, the
latched values, BUSYERR and the HOST's lists; and, at any stage but FIN, RESULT, COUNT and STATUS. -/
def Obligations.EngineFrame : Prop :=
  ∀ s t : State, takeTurn .engine s = .next t →
    t.len = s.len ∧ t.maxLen = s.maxLen ∧ (∀ a, memRead a t = memRead a s) ∧ t.widthL = s.widthL ∧
    t.lenL = s.lenL ∧ t.status.busyErr = s.status.busyErr ∧ t.agenda = s.agenda ∧ t.replies = s.replies ∧
    (s.stage ≠ .fin → t.result = s.result ∧ t.count = s.count ∧ t.status = s.status)

/-! ## Who writes what, over every step -/

/-- R25: LEN is written by a RegWrite to it while idle (unchanged, any value) and by reset; a LEN above MAX_LEN is found
when a COMPUTE is issued. -/
def Obligations.LenWrites : Prop :=
  State.reset.len = 0#32 ∧
  ∀ s t : State, step s = .next t →
    (∀ v, s.turn = .host (.regWrite 0x04#32 v) → s.status.busy = false → t.len = v) ∧
    (s.resetting → t.len = 0#32) ∧
    (¬s.resetting → (∀ v, s.turn = .host (.regWrite 0x04#32 v) → s.status.busy = true) → t.len = s.len) ∧
    (∀ w : Width, s.issues (encode w.command) → s.maxLen.toNat < s.len.toNat → t.status.errCode = 3#4)

/-- R26: RESULT is written by the FIN step, by CLEAR and by reset only, and fits the width. -/
def Obligations.ResultWrites : Prop :=
  ∀ s t : State, step s = .next t →
    (s.engineAt .fin → t.result = s.acc &&& s.widthL.mask ∧ t.result.toNat < 2 ^ s.widthL.bits) ∧
    (s.clears ∨ s.resetting → t.result = 0#32) ∧
    (¬s.engineAt .fin → ¬s.clears → ¬s.resetting → t.result = s.result)

/-- R27: COUNT receives the unpadded LEN_L at FIN, 0 by CLEAR and by reset, and is written by nothing else. -/
def Obligations.CountWrites : Prop :=
  ∀ s t : State, step s = .next t →
    (s.engineAt .fin → t.count = s.lenL) ∧
    (s.clears ∨ s.resetting → t.count = 0#32) ∧
    (¬s.engineAt .fin → ¬s.clears → ¬s.resetting → t.count = s.count)

/-- R28: what writes ACC, and that it can be read in every state. -/
def Obligations.AccWrites : Prop :=
  (∀ s t : State, step s = .next t →
    (∀ w, s.accepts w → t.acc = 0#32) ∧
    (s.clears ∨ s.resetting → t.acc = 0#32) ∧
    (s.engineAt .agg → t.acc = accumulate s.widthL s.acc
      (wordAt (padByteAt s) s.pos.toNat s.widthL.nb (min s.widthL.nb (s.pLen.toNat - s.pos.toNat)))) ∧
    (s.engineAt .fin → t.acc = s.acc &&& s.widthL.mask) ∧
    ((∀ w, ¬s.accepts w) → ¬s.clears → ¬s.resetting → ¬s.engineAt .agg → ¬s.engineAt .fin → t.acc = s.acc)) ∧
  State.reset.acc = 0#32 ∧
  ∀ s : State, takeTurn (.host (.regRead 0x0C#32)) s =
    .next { s with replies := .reg 0x0C#32 s.acc :: s.replies }

/-- R29: MAXLEN is constant: no step changes it, a read returns it, and at reset it is the parameter MAX_LEN. -/
def Obligations.MaxLenConstant : Prop :=
  State.reset.maxLen.toNat = Config.maxLen.val ∧
  (∀ s t : State, step s = .next t → t.maxLen = s.maxLen) ∧
  ∀ s : State, takeTurn (.host (.regRead 0x18#32)) s =
    .next { s with replies := .reg 0x18#32 s.maxLen :: s.replies }

/-- 10_state.md section 4 and 20_memory.md section 1: a step changes a byte of INBUF only by a BufWrite to its index while
idle, or by a reset, whose contents the spec leaves open and this statement says nothing of. -/
def Obligations.InbufWrites : Prop :=
  ∀ s t : State, step s = .next t →
    (∀ i b, s.turn = .host (.bufWrite i b) → s.status.busy = false → i.toNat < s.maxLen.toNat →
      memRead i.toNat t = b ∧ ∀ j, j ≠ i.toNat → memRead j t = memRead j s) ∧
    (¬s.resetting →
      (∀ i b, s.turn = .host (.bufWrite i b) → s.status.busy = true ∨ s.maxLen.toNat ≤ i.toNat) →
      ∀ j, memRead j t = memRead j s)

/-- R32: BUSY is set by acceptance, cleared by FIN and by reset, written by nothing else; while BUSY = 1 the ENGINE has an
enabled step. -/
def Obligations.BusyWrites : Prop :=
  (∀ s t : State, step s = .next t →
    (∀ w, s.accepts w → t.status.busy = true) ∧
    (s.engineAt .fin ∨ s.resetting → t.status.busy = false) ∧
    ((∀ w, ¬s.accepts w) → ¬s.engineAt .fin → ¬s.resetting → t.status.busy = s.status.busy)) ∧
  ∀ s : State, s.Inv → s.status.busy = true → s.stage ≠ .idle

/-- R33: DONE is set by FIN only; acceptance, any command error, CLEAR and reset clear it. -/
def Obligations.DoneWrites : Prop :=
  ∀ s t : State, step s = .next t →
    (s.engineAt .fin → t.status.done = true) ∧
    ((∃ w, s.accepts w) ∨ (∃ e, s.errs e) ∨ s.clears ∨ s.resetting → t.status.done = false) ∧
    (¬s.engineAt .fin → (∀ w, ¬s.accepts w) → (∀ e, ¬s.errs e) → ¬s.clears → ¬s.resetting →
      t.status.done = s.status.done)

/-- R34: ERR and ERRCODE are written together: by a command error (the code of the most recent one), by acceptance, by
CLEAR and by reset, and by nothing else (NOP keeps them). -/
def Obligations.ErrorFieldWrites : Prop :=
  ∀ s t : State, step s = .next t →
    (s.errs .illegalCmd → t.status.err = true ∧ t.status.errCode = 1#4) ∧
    (s.errs .domain → t.status.err = true ∧ t.status.errCode = 2#4) ∧
    (s.errs .length → t.status.err = true ∧ t.status.errCode = 3#4) ∧
    ((∃ w, s.accepts w) ∨ s.clears ∨ s.resetting → t.status.err = false ∧ t.status.errCode = 0#4) ∧
    ((∀ e, ¬s.errs e) → (∀ w, ¬s.accepts w) → ¬s.clears → ¬s.resetting →
      t.status.err = s.status.err ∧ t.status.errCode = s.status.errCode)

/-- R35: BUSYERR is set by the busy discard, cleared by an accepted CLEAR and by reset, and kept by everything else. -/
def Obligations.BusyErrWrites : Prop :=
  ∀ s t : State, step s = .next t →
    (s.discards → t.status.busyErr = true) ∧
    (s.clears ∨ s.resetting → t.status.busyErr = false) ∧
    (¬s.discards → ¬s.clears → ¬s.resetting → t.status.busyErr = s.status.busyErr)

/-- R36: the moves of STAGE, and that it is IDLE at reset. -/
def Obligations.StageMoves : Prop :=
  State.reset.stage = .idle ∧
  ∀ s t : State, step s = .next t →
    (∀ w, s.accepts w → t.stage = .pad) ∧
    (s.engineAt .idle → t.stage = .idle) ∧
    (s.engineAt .pad → t.stage = .agg ∨ t.stage = .fin) ∧
    (s.engineAt .agg → t.stage = .agg ∨ t.stage = .fin) ∧
    (s.engineAt .fin ∨ s.resetting → t.stage = .idle) ∧
    (s.turn ≠ .engine → (∀ w, ¬s.accepts w) → ¬s.resetting → t.stage = s.stage)

/-- R37 and R38: WIDTH_L and LEN_L are the WIDTH and the LEN of the last accepted COMPUTE, fixed otherwise but for reset;
the computation reads LEN_L, never LEN. -/
def Obligations.LatchedOperands : Prop :=
  State.reset.widthL = .w8 ∧ State.reset.lenL = 0#32 ∧
  (∀ s t : State, step s = .next t →
    (∀ w, s.accepts w → t.widthL = w ∧ t.lenL = s.len) ∧
    (s.resetting → t.widthL = .w8 ∧ t.lenL = 0#32) ∧
    ((∀ w, ¬s.accepts w) → ¬s.resetting → t.widthL = s.widthL ∧ t.lenL = s.lenL)) ∧
  ∀ (s t : State) (v : Word), takeTurn .engine s = .next t →
    takeTurn .engine { s with len := v } = .next { t with len := v }

/-- 10_state.md section 6 (R39, R40): PADN, PLEN and POS are written by the PAD step, POS also by each word step, all three
by reset, and by nothing else. The exact sum LEN_L + PADN is stated in a state that meets the invariants, where it fits 32
bits. The model's choices: POS is kept modulo 2^32 in states no run reaches (log entry 10); the FIN step keeps all three
(R41, log entry 8). -/
def Obligations.PaddingRegisterWrites : Prop :=
  State.reset.padN = 0#2 ∧ State.reset.pLen = 0#32 ∧ State.reset.pos = 0#32 ∧
  ∀ s t : State, step s = .next t →
    (s.engineAt .pad → t.padN.toNat = padCount s.lenL.toNat s.widthL ∧ t.pos = 0#32 ∧
      (s.Inv → t.pLen.toNat = s.lenL.toNat + t.padN.toNat)) ∧
    (s.engineAt .agg → t.padN = s.padN ∧ t.pLen = s.pLen ∧ t.pos = s.pos + BitVec.ofNat 32 s.widthL.nb) ∧
    (s.resetting → t.padN = 0#2 ∧ t.pLen = 0#32 ∧ t.pos = 0#32) ∧
    (¬s.engineAt .pad → ¬s.engineAt .agg → ¬s.resetting → t.padN = s.padN ∧ t.pLen = s.pLen ∧ t.pos = s.pos)

/-! ## Invariants -/

/-- 10_state.md section 7: every step keeps the invariants, from every state that meets them. -/
def Obligations.StepKeepsInvariants : Prop :=
  ∀ s t : State, s.Inv → step s = .next t → t.Inv

/-- 10_state.md section 7 and 70_reset_and_hazards.md section 1: the invariants hold at power-up and after every Reset of a
state whose capacity is legal. -/
def Obligations.ResetMeetsInvariants : Prop :=
  State.reset.Inv ∧ State.reset.Sums ∧
  ∀ s t : State, s.maxLen.toNat ≤ 2 ^ 32 - 4 → takeTurn (.host .reset) s = .next t → t.Inv ∧ t.Sums

/-- 41_pipeline.md section 3: in every step, whatever the HOST does in between, ACC stays the running sum of the words
already added. -/
def Obligations.StepKeepsRunningSum : Prop :=
  ∀ s t : State, s.Inv → s.Sums → step s = .next t → t.Sums

/-- 40_commands.md section 1 and 60_exceptions.md section 1: nothing stops the machine: every step gives a next state. -/
def Obligations.EveryStepHasNext : Prop :=
  ∀ s : State, ∃ t, step s = .next t

/-- 10_state.md sections 3, 5 and 6, the inferences marked there: what the invariants say of a state: ACC = RESULT while
DONE = 1, BUSY and DONE never both 1, ERR = 1 exactly when ERRCODE is not 0, STAGE = IDLE whenever BUSY = 0, and PLEN at most
MAX_LEN + 3, so that it fits 32 bits. With StepKeepsInvariants they hold in every state a run from reset reaches. -/
def Obligations.InvariantsOfRegisters : Prop :=
  ∀ s t : State, s.Inv → step s = .next t →
    (t.status.done = true → t.acc = t.result) ∧
    ¬(t.status.busy = true ∧ t.status.done = true) ∧
    (t.status.err = true ↔ t.status.errCode ≠ 0#4) ∧
    (t.status.busy = false → t.stage = .idle) ∧
    (t.stage = .agg ∨ t.stage = .fin →
      t.pLen.toNat = t.lenL.toNat + t.padN.toNat ∧ t.padN.toNat ≤ 3 ∧ t.pLen.toNat ≤ t.maxLen.toNat + 3)

/-- The model's canonical form (log entry 5): two buffers in canonical form with the same written bytes are the same data,
and every step keeps the form. -/
def Obligations.BufferFormIsCanonical : Prop :=
  (∀ (cap : Nat) (m m' : Memory), m.wf cap = true → m'.wf cap = true →
    (∀ i, m.lookup i = m'.lookup i) → m = m') ∧
  ∀ s t : State, s.inbuf.wf s.maxLen.toNat = true → step s = .next t → t.inbuf.wf t.maxLen.toNat = true

/-! ## Outcomes of a computation -/

/-- 40_commands.md section 5 (R102): from an accepted COMPUTE 8, n + 2 ENGINE turns leave the sum of the rule's loop,
masked after every addition; ACC after the k-th word is the masked running sum (R134, the spec's own inference).
Beside R102: the number of turns is the spec's own inference in R132, an empty agenda gives ENGINE turns (log entry
2), and PADN is kept after FIN (R41, log entry 8). -/
def Obligations.ComputeEightOutcome : Prop :=
  ∀ s : State, s.status.busy = false → s.len.toNat ≤ s.maxLen.toNat → s.maxLen.toNat ≤ 2 ^ 32 - 4 →
    ∃ t u : State, encode .compute8 = 0x00000801#32 ∧ exec .compute8 s = .next t ∧
      Host.Core.run Sys2Proof.core (s.len.toNat + 2) { t with agenda := [] } = .next u ∧
      u.result = ((inputBytes s s.len.toNat).foldl (fun acc b => (acc + b.zeroExtend 32) &&& 0xFF#32) 0#32) &&& 0xFF#32 ∧
      (∀ k, k ≤ s.len.toNat → ∃ v : State, Host.Core.run Sys2Proof.core (k + 1) { t with agenda := [] } = .next v ∧
        v.acc = ((inputBytes s s.len.toNat).take k).foldl (fun acc b => (acc + b.zeroExtend 32) &&& 0xFF#32) 0#32) ∧
      u.acc = u.result ∧ u.count = s.len ∧ u.padN = 0#2 ∧
      u.status = { s.status with busy := false, done := true, err := false, errCode := 0#4 } ∧
      u.stage = .idle ∧ u.len = s.len ∧ ∀ a, memRead a u = memRead a s

/-- 40_commands.md section 5 (R103): from an accepted COMPUTE 16, N + 2 ENGINE turns leave the rule's sum of
big-endian 16-bit words, masked once; ACC after the k-th word is the running sum, not masked (R134, the spec's own
inference). Beside R103: the number of turns is the spec's own inference in R132, an empty agenda gives ENGINE turns
(log entry 2), and PADN is kept after FIN (R41, log entry 8). -/
def Obligations.ComputeSixteenOutcome : Prop :=
  ∀ s : State, s.status.busy = false → s.len.toNat ≤ s.maxLen.toNat → s.maxLen.toNat ≤ 2 ^ 32 - 4 →
    ∃ (t u : State) (P : List Byte), encode .compute16 = 0x00001001#32 ∧ exec .compute16 s = .next t ∧
      P = inputBytes s s.len.toNat ++ List.replicate (s.len.toNat % 2) 0x58#8 ∧
      Host.Core.run Sys2Proof.core (P.length / 2 + 2) { t with agenda := [] } = .next u ∧
      u.result = ((List.range (P.length / 2)).foldl (fun acc k => acc +
        ((P.getD (2 * k) 0#8).zeroExtend 32 <<< 8 ||| (P.getD (2 * k + 1) 0#8).zeroExtend 32)) 0#32) &&& 0xFFFF#32 ∧
      (∀ n, n ≤ P.length / 2 → ∃ v : State, Host.Core.run Sys2Proof.core (n + 1) { t with agenda := [] } = .next v ∧
        v.acc = (List.range n).foldl (fun acc k => acc +
          ((P.getD (2 * k) 0#8).zeroExtend 32 <<< 8 ||| (P.getD (2 * k + 1) 0#8).zeroExtend 32)) 0#32) ∧
      u.acc = u.result ∧ u.count = s.len ∧ u.padN.toNat = s.len.toNat % 2 ∧
      u.status = { s.status with busy := false, done := true, err := false, errCode := 0#4 } ∧
      u.stage = .idle ∧ u.len = s.len ∧ ∀ a, memRead a u = memRead a s

/-- 40_commands.md section 5 (R104): from an accepted COMPUTE 32, N + 2 ENGINE turns leave the rule's sum of
big-endian 32-bit words. Beside R104: the number of turns is the spec's own inference in R132, an empty agenda gives
ENGINE turns (log entry 2), and PADN is kept after FIN (R41, log entry 8). -/
def Obligations.ComputeThirtyTwoOutcome : Prop :=
  ∀ s : State, s.status.busy = false → s.len.toNat ≤ s.maxLen.toNat → s.maxLen.toNat ≤ 2 ^ 32 - 4 →
    ∃ (t u : State) (P : List Byte), encode .compute32 = 0x00002001#32 ∧ exec .compute32 s = .next t ∧
      P = inputBytes s s.len.toNat ++ List.replicate ((4 - s.len.toNat % 4) % 4) 0x58#8 ∧
      Host.Core.run Sys2Proof.core (P.length / 4 + 2) { t with agenda := [] } = .next u ∧
      u.result = (List.range (P.length / 4)).foldl (fun acc k => acc +
        ((P.getD (4 * k) 0#8).zeroExtend 32 <<< 24 ||| (P.getD (4 * k + 1) 0#8).zeroExtend 32 <<< 16
          ||| (P.getD (4 * k + 2) 0#8).zeroExtend 32 <<< 8 ||| (P.getD (4 * k + 3) 0#8).zeroExtend 32)) 0#32 ∧
      u.acc = u.result ∧ u.count = s.len ∧ u.padN.toNat = (4 - s.len.toNat % 4) % 4 ∧
      u.status = { s.status with busy := false, done := true, err := false, errCode := 0#4 } ∧
      u.stage = .idle ∧ u.len = s.len ∧ ∀ a, memRead a u = memRead a s

/-- 41_pipeline.md section 3 and 20_memory.md section 5: under EVERY schedule. Issue a COMPUTE of width w; let the HOST and
the ENGINE take any turns `ts` with no Reset among them, N + 2 of them the ENGINE's, the last one included. The outcome is
Checksum of the bytes as they stood at acceptance, whatever the HOST wrote or read meanwhile. -/
def Obligations.OutcomeUnderEverySchedule : Prop :=
  ∀ (s : State) (w : Width) (ts : List Turn),
    s.status.busy = false → s.len.toNat ≤ s.maxLen.toNat → s.maxLen.toNat ≤ 2 ^ 32 - 4 →
    Turn.host .reset ∉ ts → ts.count .engine = wordCount s.len.toNat w + 2 → ts.getLast? = some .engine →
    ∃ u : State,
      Host.Core.run Sys2Proof.core (ts.length + 1)
        { s with agenda := .host (.regWrite 0x00#32 (encode w.command)) :: ts } = .next u ∧
      u.result = checksum (inputBytes s s.len.toNat) w ∧ u.acc = u.result ∧ u.count = s.len ∧
      u.status.busy = false ∧ u.status.done = true ∧ u.status.err = false ∧ u.stage = .idle ∧
      u.len = s.len ∧ ∀ a, memRead a u = memRead a s

/-- 41_pipeline.md section 3: an accepted COMPUTE takes exactly N + 2 ENGINE steps: the ENGINE is busy before each of them
and idle after the last. -/
def Obligations.ComputationStepCount : Prop :=
  ∀ (s t : State) (w : Width), s.status.busy = false → s.len.toNat ≤ s.maxLen.toNat → s.maxLen.toNat ≤ 2 ^ 32 - 4 →
    exec w.command s = .next t →
    (∀ k, k < wordCount s.len.toNat w + 2 →
      (engineTurns k t).stage ≠ .idle ∧ (engineTurns k t).status.busy = true) ∧
    (engineTurns (wordCount s.len.toNat w + 2) t).stage = .idle ∧
    (engineTurns (wordCount s.len.toNat w + 2) t).status.busy = false

/-- 20_memory.md section 5: once DONE = 1, RESULT and COUNT keep the values of FIN over any turns among which there is no
COMPUTE or CLEAR command and no Reset. -/
def Obligations.ResultStaysVisible : Prop :=
  ∀ (s : State) (ts : List Turn), s.Inv → s.status.done = true →
    (∀ t ∈ ts, t ≠ .host .reset ∧ t ≠ .host (.regWrite 0x00#32 0x00000002#32) ∧
      ∀ w : Width, t ≠ .host (.regWrite 0x00#32 (encode w.command))) →
    ∃ u : State, Host.Core.run Sys2Proof.core ts.length { s with agenda := ts } = .next u ∧
      u.result = s.result ∧ u.count = s.count

/-- 30_encoding.md section 5: LOAD, performed while idle, leaves exactly its bytes in the buffer and their number in LEN. -/
def Obligations.LoadFillsBuffer : Prop :=
  ∀ (s : State) (bs : List Byte), s.status.busy = false → bs.length ≤ s.maxLen.toNat →
    ∃ u : State,
      Host.Core.run Sys2Proof.core (bs.length + 1)
        { s with agenda := (loadLines bs).map (fun l => .host l.op) } = .next u ∧
      u.len.toNat = bs.length ∧ inputBytes u bs.length = bs ∧ u.status = s.status ∧ u.maxLen = s.maxLen ∧
      u.result = s.result ∧ u.count = s.count

/-! ## The data path as functions -/

/-- 41_pipeline.md section 1: the pad count of each width, that it is less than the word size, completes the last word, is 0
exactly for whole words and for the empty sequence; and the filler byte. -/
def Obligations.PadCountRules : Prop :=
  Config.padByte = 0x58#8 ∧
  ∀ n : Nat, padCount n .w8 = 0 ∧ padCount n .w16 = n % 2 ∧ padCount n .w32 = (4 - n % 4) % 4 ∧
    ∀ w : Width, padCount n w < w.nb ∧ (n + padCount n w) % w.nb = 0 ∧ (padCount n w = 0 ↔ n % w.nb = 0) ∧
      padCount 0 w = 0

/-- 41_pipeline.md section 1: the bytes the ENGINE reads are those of the padded sequence of the ByteSequence. -/
def Obligations.VirtualPaddingIsPaddedSequence : Prop :=
  ∀ (s : State) (i : Nat), i < s.lenL.toNat + padCount s.lenL.toNat s.widthL →
    (inputBytes s s.lenL.toNat ++
      List.replicate (padCount s.lenL.toNat s.widthL) 0x58#8)[i]? = some (padByteAt s i)

/-- 41_pipeline.md section 2, law (a), and law (e)'s equality of the two maskings. -/
def Obligations.ChecksumEightIsByteSum : Prop :=
  ∀ B : List Byte,
    (checksum B .w8).toNat = (B.map (fun b => b.toNat)).sum % 256 ∧
    checksum B .w8 = (B.foldl (fun acc b => acc + b.zeroExtend 32) 0#32) &&& 0xFF#32

/-- 41_pipeline.md section 2, laws (b), (c) and (f): at widths 16 and 32 the checksum is the exact sum of the words of the
padded sequence modulo 65536 and 2^32. -/
def Obligations.ChecksumIsWordSum : Prop :=
  ∀ B : List Byte,
    (checksum B .w16).toNat =
      ((List.range (wordCount B.length .w16)).map (fun k => (wordOf B .w16 k).toNat)).sum % 65536 ∧
    (checksum B .w32).toNat =
      ((List.range (wordCount B.length .w32)).map (fun k => (wordOf B .w32 k).toNat)).sum % 2 ^ 32

/-- 41_pipeline.md sections 1 and 2, law (d): the checksum fits its width, is 0 for the empty sequence, and the digits the
HOST reports determine it. -/
def Obligations.ChecksumFitsWidth : Prop :=
  ∀ w : Width, checksum [] w = 0#32 ∧
    ∀ B : List Byte, (checksum B w).toNat < 2 ^ w.bits ∧
      (reportDigits w (checksum B w)).length = w.bits / 4 ∧
      (reportDigits w (checksum B w)).foldl (fun a d => a * 16 + d.toNat) 0 = (checksum B w).toNat
end

