-- ==== Sys2Proof/Laws/State.lean ====
section
/-! SUPPORT. For each named update, the value of each field after it (true by definition), so that no proof unfolds an
update. -/

namespace Sys2Proof.Machine

/-! ## The updates of STATUS -/

@[simp] theorem Status.raised_busy (e : CmdError) (st : Status) : (st.raised e).busy = st.busy := rfl
@[simp] theorem Status.raised_done (e : CmdError) (st : Status) : (st.raised e).done = false := rfl
@[simp] theorem Status.raised_err (e : CmdError) (st : Status) : (st.raised e).err = true := rfl
@[simp] theorem Status.raised_busyErr (e : CmdError) (st : Status) : (st.raised e).busyErr = st.busyErr := rfl
@[simp] theorem Status.raised_errCode (e : CmdError) (st : Status) : (st.raised e).errCode = e.code := rfl

@[simp] theorem Status.accepted_busy (st : Status) : st.accepted.busy = true := rfl
@[simp] theorem Status.accepted_done (st : Status) : st.accepted.done = false := rfl
@[simp] theorem Status.accepted_err (st : Status) : st.accepted.err = false := rfl
@[simp] theorem Status.accepted_busyErr (st : Status) : st.accepted.busyErr = st.busyErr := rfl
@[simp] theorem Status.accepted_errCode (st : Status) : st.accepted.errCode = 0#4 := rfl

@[simp] theorem Status.finished_busy (st : Status) : st.finished.busy = false := rfl
@[simp] theorem Status.finished_done (st : Status) : st.finished.done = true := rfl
@[simp] theorem Status.finished_err (st : Status) : st.finished.err = st.err := rfl
@[simp] theorem Status.finished_busyErr (st : Status) : st.finished.busyErr = st.busyErr := rfl
@[simp] theorem Status.finished_errCode (st : Status) : st.finished.errCode = st.errCode := rfl

@[simp] theorem Status.cleared_busy (st : Status) : st.cleared.busy = st.busy := rfl
@[simp] theorem Status.cleared_done (st : Status) : st.cleared.done = false := rfl
@[simp] theorem Status.cleared_err (st : Status) : st.cleared.err = false := rfl
@[simp] theorem Status.cleared_busyErr (st : Status) : st.cleared.busyErr = false := rfl
@[simp] theorem Status.cleared_errCode (st : Status) : st.cleared.errCode = 0#4 := rfl

@[simp] theorem Status.discarded_busy (st : Status) : st.discarded.busy = st.busy := rfl
@[simp] theorem Status.discarded_done (st : Status) : st.discarded.done = st.done := rfl
@[simp] theorem Status.discarded_err (st : Status) : st.discarded.err = st.err := rfl
@[simp] theorem Status.discarded_busyErr (st : Status) : st.discarded.busyErr = true := rfl
@[simp] theorem Status.discarded_errCode (st : Status) : st.discarded.errCode = st.errCode := rfl

@[simp] theorem Status.reset_busy : Status.reset.busy = false := rfl
@[simp] theorem Status.reset_done : Status.reset.done = false := rfl
@[simp] theorem Status.reset_err : Status.reset.err = false := rfl
@[simp] theorem Status.reset_busyErr : Status.reset.busyErr = false := rfl
@[simp] theorem Status.reset_errCode : Status.reset.errCode = 0#4 := rfl

/-! ## The updates of the state -/

@[simp] theorem setLen_len (v : Word) (s : State) : (setLen v s).len = v := rfl
@[simp] theorem setLen_status (v : Word) (s : State) : (setLen v s).status = s.status := rfl
@[simp] theorem setLen_acc (v : Word) (s : State) : (setLen v s).acc = s.acc := rfl
@[simp] theorem setLen_result (v : Word) (s : State) : (setLen v s).result = s.result := rfl
@[simp] theorem setLen_count (v : Word) (s : State) : (setLen v s).count = s.count := rfl
@[simp] theorem setLen_maxLen (v : Word) (s : State) : (setLen v s).maxLen = s.maxLen := rfl
@[simp] theorem setLen_inbuf (v : Word) (s : State) : (setLen v s).inbuf = s.inbuf := rfl
@[simp] theorem setLen_stage (v : Word) (s : State) : (setLen v s).stage = s.stage := rfl
@[simp] theorem setLen_widthL (v : Word) (s : State) : (setLen v s).widthL = s.widthL := rfl
@[simp] theorem setLen_lenL (v : Word) (s : State) : (setLen v s).lenL = s.lenL := rfl
@[simp] theorem setLen_padN (v : Word) (s : State) : (setLen v s).padN = s.padN := rfl
@[simp] theorem setLen_pLen (v : Word) (s : State) : (setLen v s).pLen = s.pLen := rfl
@[simp] theorem setLen_pos (v : Word) (s : State) : (setLen v s).pos = s.pos := rfl
@[simp] theorem setLen_resets (v : Word) (s : State) : (setLen v s).resets = s.resets := rfl
@[simp] theorem setLen_agenda (v : Word) (s : State) : (setLen v s).agenda = s.agenda := rfl
@[simp] theorem setLen_replies (v : Word) (s : State) : (setLen v s).replies = s.replies := rfl

@[simp] theorem raiseError_len (e : CmdError) (s : State) : (raiseError e s).len = s.len := rfl
@[simp] theorem raiseError_status (e : CmdError) (s : State) : (raiseError e s).status = s.status.raised e := rfl
@[simp] theorem raiseError_acc (e : CmdError) (s : State) : (raiseError e s).acc = s.acc := rfl
@[simp] theorem raiseError_result (e : CmdError) (s : State) : (raiseError e s).result = s.result := rfl
@[simp] theorem raiseError_count (e : CmdError) (s : State) : (raiseError e s).count = s.count := rfl
@[simp] theorem raiseError_maxLen (e : CmdError) (s : State) : (raiseError e s).maxLen = s.maxLen := rfl
@[simp] theorem raiseError_inbuf (e : CmdError) (s : State) : (raiseError e s).inbuf = s.inbuf := rfl
@[simp] theorem raiseError_stage (e : CmdError) (s : State) : (raiseError e s).stage = s.stage := rfl
@[simp] theorem raiseError_widthL (e : CmdError) (s : State) : (raiseError e s).widthL = s.widthL := rfl
@[simp] theorem raiseError_lenL (e : CmdError) (s : State) : (raiseError e s).lenL = s.lenL := rfl
@[simp] theorem raiseError_padN (e : CmdError) (s : State) : (raiseError e s).padN = s.padN := rfl
@[simp] theorem raiseError_pLen (e : CmdError) (s : State) : (raiseError e s).pLen = s.pLen := rfl
@[simp] theorem raiseError_pos (e : CmdError) (s : State) : (raiseError e s).pos = s.pos := rfl
@[simp] theorem raiseError_resets (e : CmdError) (s : State) : (raiseError e s).resets = s.resets := rfl
@[simp] theorem raiseError_agenda (e : CmdError) (s : State) : (raiseError e s).agenda = s.agenda := rfl
@[simp] theorem raiseError_replies (e : CmdError) (s : State) : (raiseError e s).replies = s.replies := rfl

@[simp] theorem discard_len (s : State) : (discard s).len = s.len := rfl
@[simp] theorem discard_status (s : State) : (discard s).status = s.status.discarded := rfl
@[simp] theorem discard_acc (s : State) : (discard s).acc = s.acc := rfl
@[simp] theorem discard_result (s : State) : (discard s).result = s.result := rfl
@[simp] theorem discard_count (s : State) : (discard s).count = s.count := rfl
@[simp] theorem discard_maxLen (s : State) : (discard s).maxLen = s.maxLen := rfl
@[simp] theorem discard_inbuf (s : State) : (discard s).inbuf = s.inbuf := rfl
@[simp] theorem discard_stage (s : State) : (discard s).stage = s.stage := rfl
@[simp] theorem discard_widthL (s : State) : (discard s).widthL = s.widthL := rfl
@[simp] theorem discard_lenL (s : State) : (discard s).lenL = s.lenL := rfl
@[simp] theorem discard_padN (s : State) : (discard s).padN = s.padN := rfl
@[simp] theorem discard_pLen (s : State) : (discard s).pLen = s.pLen := rfl
@[simp] theorem discard_pos (s : State) : (discard s).pos = s.pos := rfl
@[simp] theorem discard_resets (s : State) : (discard s).resets = s.resets := rfl
@[simp] theorem discard_agenda (s : State) : (discard s).agenda = s.agenda := rfl
@[simp] theorem discard_replies (s : State) : (discard s).replies = s.replies := rfl

@[simp] theorem reply_len (r : Reply) (s : State) : (reply r s).len = s.len := rfl
@[simp] theorem reply_status (r : Reply) (s : State) : (reply r s).status = s.status := rfl
@[simp] theorem reply_acc (r : Reply) (s : State) : (reply r s).acc = s.acc := rfl
@[simp] theorem reply_result (r : Reply) (s : State) : (reply r s).result = s.result := rfl
@[simp] theorem reply_count (r : Reply) (s : State) : (reply r s).count = s.count := rfl
@[simp] theorem reply_maxLen (r : Reply) (s : State) : (reply r s).maxLen = s.maxLen := rfl
@[simp] theorem reply_inbuf (r : Reply) (s : State) : (reply r s).inbuf = s.inbuf := rfl
@[simp] theorem reply_stage (r : Reply) (s : State) : (reply r s).stage = s.stage := rfl
@[simp] theorem reply_widthL (r : Reply) (s : State) : (reply r s).widthL = s.widthL := rfl
@[simp] theorem reply_lenL (r : Reply) (s : State) : (reply r s).lenL = s.lenL := rfl
@[simp] theorem reply_padN (r : Reply) (s : State) : (reply r s).padN = s.padN := rfl
@[simp] theorem reply_pLen (r : Reply) (s : State) : (reply r s).pLen = s.pLen := rfl
@[simp] theorem reply_pos (r : Reply) (s : State) : (reply r s).pos = s.pos := rfl
@[simp] theorem reply_resets (r : Reply) (s : State) : (reply r s).resets = s.resets := rfl
@[simp] theorem reply_agenda (r : Reply) (s : State) : (reply r s).agenda = s.agenda := rfl
@[simp] theorem reply_replies (r : Reply) (s : State) : (reply r s).replies = r :: s.replies := rfl

@[simp] theorem memWrite_len (i : Nat) (b : Byte) (s : State) : (memWrite i b s).len = s.len := rfl
@[simp] theorem memWrite_status (i : Nat) (b : Byte) (s : State) : (memWrite i b s).status = s.status := rfl
@[simp] theorem memWrite_acc (i : Nat) (b : Byte) (s : State) : (memWrite i b s).acc = s.acc := rfl
@[simp] theorem memWrite_result (i : Nat) (b : Byte) (s : State) : (memWrite i b s).result = s.result := rfl
@[simp] theorem memWrite_count (i : Nat) (b : Byte) (s : State) : (memWrite i b s).count = s.count := rfl
@[simp] theorem memWrite_maxLen (i : Nat) (b : Byte) (s : State) : (memWrite i b s).maxLen = s.maxLen := rfl
@[simp] theorem memWrite_inbuf (i : Nat) (b : Byte) (s : State) :
    (memWrite i b s).inbuf = if i < s.maxLen.toNat then s.inbuf.insert i b else s.inbuf := rfl
@[simp] theorem memWrite_stage (i : Nat) (b : Byte) (s : State) : (memWrite i b s).stage = s.stage := rfl
@[simp] theorem memWrite_widthL (i : Nat) (b : Byte) (s : State) : (memWrite i b s).widthL = s.widthL := rfl
@[simp] theorem memWrite_lenL (i : Nat) (b : Byte) (s : State) : (memWrite i b s).lenL = s.lenL := rfl
@[simp] theorem memWrite_padN (i : Nat) (b : Byte) (s : State) : (memWrite i b s).padN = s.padN := rfl
@[simp] theorem memWrite_pLen (i : Nat) (b : Byte) (s : State) : (memWrite i b s).pLen = s.pLen := rfl
@[simp] theorem memWrite_pos (i : Nat) (b : Byte) (s : State) : (memWrite i b s).pos = s.pos := rfl
@[simp] theorem memWrite_resets (i : Nat) (b : Byte) (s : State) : (memWrite i b s).resets = s.resets := rfl
@[simp] theorem memWrite_agenda (i : Nat) (b : Byte) (s : State) : (memWrite i b s).agenda = s.agenda := rfl
@[simp] theorem memWrite_replies (i : Nat) (b : Byte) (s : State) : (memWrite i b s).replies = s.replies := rfl

@[simp] theorem clearResults_len (s : State) : (clearResults s).len = s.len := rfl
@[simp] theorem clearResults_status (s : State) : (clearResults s).status = s.status.cleared := rfl
@[simp] theorem clearResults_acc (s : State) : (clearResults s).acc = 0#32 := rfl
@[simp] theorem clearResults_result (s : State) : (clearResults s).result = 0#32 := rfl
@[simp] theorem clearResults_count (s : State) : (clearResults s).count = 0#32 := rfl
@[simp] theorem clearResults_maxLen (s : State) : (clearResults s).maxLen = s.maxLen := rfl
@[simp] theorem clearResults_inbuf (s : State) : (clearResults s).inbuf = s.inbuf := rfl
@[simp] theorem clearResults_stage (s : State) : (clearResults s).stage = s.stage := rfl
@[simp] theorem clearResults_widthL (s : State) : (clearResults s).widthL = s.widthL := rfl
@[simp] theorem clearResults_lenL (s : State) : (clearResults s).lenL = s.lenL := rfl
@[simp] theorem clearResults_padN (s : State) : (clearResults s).padN = s.padN := rfl
@[simp] theorem clearResults_pLen (s : State) : (clearResults s).pLen = s.pLen := rfl
@[simp] theorem clearResults_pos (s : State) : (clearResults s).pos = s.pos := rfl
@[simp] theorem clearResults_resets (s : State) : (clearResults s).resets = s.resets := rfl
@[simp] theorem clearResults_agenda (s : State) : (clearResults s).agenda = s.agenda := rfl
@[simp] theorem clearResults_replies (s : State) : (clearResults s).replies = s.replies := rfl

@[simp] theorem acceptCompute_len (w : Width) (s : State) : (acceptCompute w s).len = s.len := rfl
@[simp] theorem acceptCompute_status (w : Width) (s : State) : (acceptCompute w s).status = s.status.accepted := rfl
@[simp] theorem acceptCompute_acc (w : Width) (s : State) : (acceptCompute w s).acc = 0#32 := rfl
@[simp] theorem acceptCompute_result (w : Width) (s : State) : (acceptCompute w s).result = s.result := rfl
@[simp] theorem acceptCompute_count (w : Width) (s : State) : (acceptCompute w s).count = s.count := rfl
@[simp] theorem acceptCompute_maxLen (w : Width) (s : State) : (acceptCompute w s).maxLen = s.maxLen := rfl
@[simp] theorem acceptCompute_inbuf (w : Width) (s : State) : (acceptCompute w s).inbuf = s.inbuf := rfl
@[simp] theorem acceptCompute_stage (w : Width) (s : State) : (acceptCompute w s).stage = .pad := rfl
@[simp] theorem acceptCompute_widthL (w : Width) (s : State) : (acceptCompute w s).widthL = w := rfl
@[simp] theorem acceptCompute_lenL (w : Width) (s : State) : (acceptCompute w s).lenL = s.len := rfl
@[simp] theorem acceptCompute_padN (w : Width) (s : State) : (acceptCompute w s).padN = s.padN := rfl
@[simp] theorem acceptCompute_pLen (w : Width) (s : State) : (acceptCompute w s).pLen = s.pLen := rfl
@[simp] theorem acceptCompute_pos (w : Width) (s : State) : (acceptCompute w s).pos = s.pos := rfl
@[simp] theorem acceptCompute_resets (w : Width) (s : State) : (acceptCompute w s).resets = s.resets := rfl
@[simp] theorem acceptCompute_agenda (w : Width) (s : State) : (acceptCompute w s).agenda = s.agenda := rfl
@[simp] theorem acceptCompute_replies (w : Width) (s : State) : (acceptCompute w s).replies = s.replies := rfl

@[simp] theorem padStep_len (s : State) : (padStep s).len = s.len := rfl
@[simp] theorem padStep_status (s : State) : (padStep s).status = s.status := rfl
@[simp] theorem padStep_acc (s : State) : (padStep s).acc = s.acc := rfl
@[simp] theorem padStep_result (s : State) : (padStep s).result = s.result := rfl
@[simp] theorem padStep_count (s : State) : (padStep s).count = s.count := rfl
@[simp] theorem padStep_maxLen (s : State) : (padStep s).maxLen = s.maxLen := rfl
@[simp] theorem padStep_inbuf (s : State) : (padStep s).inbuf = s.inbuf := rfl
@[simp] theorem padStep_stage (s : State) : (padStep s).stage = if s.lenL = 0#32 then .fin else .agg := rfl
@[simp] theorem padStep_widthL (s : State) : (padStep s).widthL = s.widthL := rfl
@[simp] theorem padStep_lenL (s : State) : (padStep s).lenL = s.lenL := rfl
@[simp] theorem padStep_padN (s : State) : (padStep s).padN = BitVec.ofNat 2 (padCount s.lenL.toNat s.widthL) := rfl
@[simp] theorem padStep_pLen (s : State) :
    (padStep s).pLen = s.lenL + BitVec.ofNat 32 (padCount s.lenL.toNat s.widthL) := rfl
@[simp] theorem padStep_pos (s : State) : (padStep s).pos = 0#32 := rfl
@[simp] theorem padStep_resets (s : State) : (padStep s).resets = s.resets := rfl
@[simp] theorem padStep_agenda (s : State) : (padStep s).agenda = s.agenda := rfl
@[simp] theorem padStep_replies (s : State) : (padStep s).replies = s.replies := rfl

@[simp] theorem aggStep_len (s : State) : (aggStep s).len = s.len := rfl
@[simp] theorem aggStep_status (s : State) : (aggStep s).status = s.status := rfl
@[simp] theorem aggStep_acc (s : State) : (aggStep s).acc = accumulate s.widthL s.acc (nextWord s) := rfl
@[simp] theorem aggStep_result (s : State) : (aggStep s).result = s.result := rfl
@[simp] theorem aggStep_count (s : State) : (aggStep s).count = s.count := rfl
@[simp] theorem aggStep_maxLen (s : State) : (aggStep s).maxLen = s.maxLen := rfl
@[simp] theorem aggStep_inbuf (s : State) : (aggStep s).inbuf = s.inbuf := rfl
@[simp] theorem aggStep_stage (s : State) :
    (aggStep s).stage = if s.pLen.toNat ≤ s.pos.toNat + s.widthL.nb then .fin else .agg := rfl
@[simp] theorem aggStep_widthL (s : State) : (aggStep s).widthL = s.widthL := rfl
@[simp] theorem aggStep_lenL (s : State) : (aggStep s).lenL = s.lenL := rfl
@[simp] theorem aggStep_padN (s : State) : (aggStep s).padN = s.padN := rfl
@[simp] theorem aggStep_pLen (s : State) : (aggStep s).pLen = s.pLen := rfl
@[simp] theorem aggStep_pos (s : State) : (aggStep s).pos = s.pos + BitVec.ofNat 32 s.widthL.nb := rfl
@[simp] theorem aggStep_resets (s : State) : (aggStep s).resets = s.resets := rfl
@[simp] theorem aggStep_agenda (s : State) : (aggStep s).agenda = s.agenda := rfl
@[simp] theorem aggStep_replies (s : State) : (aggStep s).replies = s.replies := rfl

@[simp] theorem finStep_len (s : State) : (finStep s).len = s.len := rfl
@[simp] theorem finStep_status (s : State) : (finStep s).status = s.status.finished := rfl
@[simp] theorem finStep_acc (s : State) : (finStep s).acc = s.acc &&& s.widthL.mask := rfl
@[simp] theorem finStep_result (s : State) : (finStep s).result = s.acc &&& s.widthL.mask := rfl
@[simp] theorem finStep_count (s : State) : (finStep s).count = s.lenL := rfl
@[simp] theorem finStep_maxLen (s : State) : (finStep s).maxLen = s.maxLen := rfl
@[simp] theorem finStep_inbuf (s : State) : (finStep s).inbuf = s.inbuf := rfl
@[simp] theorem finStep_stage (s : State) : (finStep s).stage = .idle := rfl
@[simp] theorem finStep_widthL (s : State) : (finStep s).widthL = s.widthL := rfl
@[simp] theorem finStep_lenL (s : State) : (finStep s).lenL = s.lenL := rfl
@[simp] theorem finStep_padN (s : State) : (finStep s).padN = s.padN := rfl
@[simp] theorem finStep_pLen (s : State) : (finStep s).pLen = s.pLen := rfl
@[simp] theorem finStep_pos (s : State) : (finStep s).pos = s.pos := rfl
@[simp] theorem finStep_resets (s : State) : (finStep s).resets = s.resets := rfl
@[simp] theorem finStep_agenda (s : State) : (finStep s).agenda = s.agenda := rfl
@[simp] theorem finStep_replies (s : State) : (finStep s).replies = s.replies := rfl

@[simp] theorem resetBlock_len (s : State) : (resetBlock s).len = 0#32 := rfl
@[simp] theorem resetBlock_status (s : State) : (resetBlock s).status = Status.reset := rfl
@[simp] theorem resetBlock_acc (s : State) : (resetBlock s).acc = 0#32 := rfl
@[simp] theorem resetBlock_result (s : State) : (resetBlock s).result = 0#32 := rfl
@[simp] theorem resetBlock_count (s : State) : (resetBlock s).count = 0#32 := rfl
@[simp] theorem resetBlock_maxLen (s : State) : (resetBlock s).maxLen = s.maxLen := rfl
@[simp] theorem resetBlock_inbuf (s : State) : (resetBlock s).inbuf = [] := rfl
@[simp] theorem resetBlock_stage (s : State) : (resetBlock s).stage = .idle := rfl
@[simp] theorem resetBlock_widthL (s : State) : (resetBlock s).widthL = .w8 := rfl
@[simp] theorem resetBlock_lenL (s : State) : (resetBlock s).lenL = 0#32 := rfl
@[simp] theorem resetBlock_padN (s : State) : (resetBlock s).padN = 0#2 := rfl
@[simp] theorem resetBlock_pLen (s : State) : (resetBlock s).pLen = 0#32 := rfl
@[simp] theorem resetBlock_pos (s : State) : (resetBlock s).pos = 0#32 := rfl
@[simp] theorem resetBlock_resets (s : State) : (resetBlock s).resets = s.resets + 1 := rfl
@[simp] theorem resetBlock_agenda (s : State) : (resetBlock s).agenda = s.agenda := rfl
@[simp] theorem resetBlock_replies (s : State) : (resetBlock s).replies = s.replies := rfl

end Sys2Proof.Machine
end

