-- ==== Sys2Proof/Laws/Memory.lean ====
section
/-! SUPPORT. The input buffer: a read after a write, and the canonical form, which every operation on the buffer keeps and
which makes equal buffers equal data. -/

namespace Sys2Proof.Machine

theorem Memory.lookup_insert_same (i : Nat) (b : Byte) (m : Memory) : (m.insert i b).lookup i = some b := by
  induction m with
  | nil => simp [Memory.insert, Memory.lookup]
  | cons c m ih =>
    simp only [Memory.insert]
    split
    · next h => simp [Memory.lookup, ih, Nat.ne_of_lt h]
    · split <;> simp [Memory.lookup]

theorem Memory.lookup_insert_other {i j : Nat} (h : j ≠ i) (b : Byte) (m : Memory) :
    (m.insert i b).lookup j = m.lookup j := by
  induction m with
  | nil => simp [Memory.insert, Memory.lookup, h.symm]
  | cons c m ih =>
    simp only [Memory.insert]
    split
    · simp [Memory.lookup, ih]
    · split
      · next hc => simp [Memory.lookup, hc, h.symm]
      · simp [Memory.lookup, h.symm]

theorem Memory.wfFrom_cons {lo cap : Nat} {c : Host.Cell} {m : Memory} :
    Memory.wfFrom lo cap (c :: m) = true ↔ lo ≤ c.1 ∧ c.1 < cap ∧ Memory.wfFrom (c.1 + 1) cap m = true := by
  simp [Memory.wfFrom, and_assoc]

theorem Memory.wfFrom_mono {lo lo' cap : Nat} (h : lo' ≤ lo) {m : Memory} (hm : Memory.wfFrom lo cap m = true) :
    Memory.wfFrom lo' cap m = true := by
  cases m with
  | nil => rfl
  | cons c m => obtain ⟨h1, h2, h3⟩ := Memory.wfFrom_cons.1 hm; exact Memory.wfFrom_cons.2 ⟨h.trans h1, h2, h3⟩

theorem Memory.wfFrom_insert {lo cap i : Nat} (b : Byte) (hlo : lo ≤ i) (hi : i < cap) {m : Memory}
    (hm : Memory.wfFrom lo cap m = true) : Memory.wfFrom lo cap (m.insert i b) = true := by
  induction m generalizing lo with
  | nil => exact Memory.wfFrom_cons.2 ⟨hlo, hi, rfl⟩
  | cons c m ih =>
    obtain ⟨h1, h2, h3⟩ := Memory.wfFrom_cons.1 hm
    simp only [Memory.insert]
    split
    · next h => exact Memory.wfFrom_cons.2 ⟨h1, h2, ih h h3⟩
    · split
      · next h => exact Memory.wfFrom_cons.2 ⟨hlo, hi, h ▸ h3⟩
      · next hlt hne =>
        exact Memory.wfFrom_cons.2 ⟨hlo, hi, Memory.wfFrom_cons.2 ⟨by omega, h2, h3⟩⟩

theorem Memory.wf_insert {cap i : Nat} (b : Byte) (hi : i < cap) {m : Memory} (hm : m.wf cap = true) :
    Memory.wf cap (m.insert i b) = true :=
  Memory.wfFrom_insert b (Nat.zero_le i) hi hm

theorem memWrite_keeps_wf {s : State} (i : Nat) (b : Byte) (h : s.inbuf.wf s.maxLen.toNat = true) :
    (memWrite i b s).inbuf.wf (memWrite i b s).maxLen.toNat = true := by
  simp only [memWrite_inbuf, memWrite_maxLen]
  split
  · next hi => exact Memory.wf_insert b hi h
  · exact h

theorem resetBlock_inbuf_wf (s : State) : (resetBlock s).inbuf.wf (resetBlock s).maxLen.toNat = true := rfl

/-- What MemRead reads depends on the buffer, the capacity and the number of resets alone. -/
theorem memRead_congr {s t : State} (h1 : t.maxLen = s.maxLen) (h2 : t.inbuf = s.inbuf) (h3 : t.resets = s.resets)
    (i : Nat) : memRead i t = memRead i s := by
  simp [memRead, unwritten, h1, h2, h3]

theorem memRead_memWrite_same {s : State} {i : Nat} (b : Byte) (hi : i < s.maxLen.toNat) :
    memRead i (memWrite i b s) = b := by
  simp [memRead, hi, Memory.lookup_insert_same]

theorem memRead_memWrite_other {s : State} {i j : Nat} (b : Byte) (h : j ≠ i) :
    memRead j (memWrite i b s) = memRead j s := by
  have hl : (memWrite i b s).inbuf.lookup j = s.inbuf.lookup j := by
    simp only [memWrite_inbuf]
    split
    · exact Memory.lookup_insert_other h b s.inbuf
    · rfl
  simp only [memRead, unwritten, hl, memWrite_maxLen, memWrite_resets]

theorem memWrite_out_of_range {s : State} {i : Nat} (b : Byte) (hi : s.maxLen.toNat ≤ i) : memWrite i b s = s := by
  simp [memWrite, Nat.not_lt.2 hi]

end Sys2Proof.Machine
end

