-- ==== Sys2Proof/Laws/PerInstr.lean ====
section
/-! SUPPORT. Statements made per instruction. RoundTrip: the instruction is well formed, its word decodes to it, and the
decoder of the table finds it in its 32 bits. -/

namespace Sys2Proof.Laws

/-- The command is well formed (R75), its word decodes to it (R74), and so does the same word as the table numbers its
bits. -/
def RoundTrip.Statement (i : Instr) : Prop :=
  i.wf = true ∧ decode (encode i) = .command i ∧ decodeTableWord 32 (encode i).toNat = some i

theorem RoundTrip.nop : RoundTrip.Statement .nop := ⟨by decide, by decide, by decide⟩

theorem RoundTrip.compute8 : RoundTrip.Statement .compute8 := ⟨by decide, by decide, by decide⟩

theorem RoundTrip.compute16 : RoundTrip.Statement .compute16 := ⟨by decide, by decide, by decide⟩

theorem RoundTrip.compute32 : RoundTrip.Statement .compute32 := ⟨by decide, by decide, by decide⟩

theorem RoundTrip.clear : RoundTrip.Statement .clear := ⟨by decide, by decide, by decide⟩

end Sys2Proof.Laws
end

