-- ==== Sys2Proof/Laws/Step.lean ====
section
/-! SUPPORT. What each shared operation can do, said once: a command (exec_eq), a command issue (issue_idle, issue_busy), a
host write (regWrite_eq), an ENGINE turn (engineStep_cases), a step (step_eq, step_case). -/

namespace Sys2Proof.Machine

theorem whenIdle_busy {s : State} (act : State → State) (h : s.status.busy = true) : whenIdle act s = discard s := by
  simp [whenIdle, h]

theorem whenIdle_idle {s : State} (act : State → State) (h : s.status.busy = false) : whenIdle act s = act s := by
  simp [whenIdle, h]

/-- The effect of each command while the ENGINE is idle (R93, R94, R96). -/
def commandEffect : Instr → State → State
  | .nop => fun t => t
  | .compute8 => issueCompute .w8
  | .compute16 => issueCompute .w16
  | .compute32 => issueCompute .w32
  | .clear => clearResults

theorem exec_eq (i : Instr) (s : State) : exec i s = .next (whenIdle (commandEffect i) s) := by
  cases i <;> rfl

theorem exec_busy (i : Instr) {s : State} (h : s.status.busy = true) : exec i s = .next (discard s) := by
  rw [exec_eq, whenIdle_busy _ h]

theorem exec_idle (i : Instr) {s : State} (h : s.status.busy = false) : exec i s = .next (commandEffect i s) := by
  rw [exec_eq, whenIdle_idle _ h]

theorem commandEffect_compute (w : Width) (s : State) : commandEffect w.command s = issueCompute w s := by
  cases w <;> rfl

theorem issueCompute_cases (w : Width) (s : State) :
    (s.maxLen.toNat < s.len.toNat ∧ issueCompute w s = raiseError .length s) ∨
      (s.len.toNat ≤ s.maxLen.toNat ∧ issueCompute w s = acceptCompute w s) := by
  unfold issueCompute
  split
  · next h => exact .inl ⟨h, rfl⟩
  · next h => exact .inr ⟨Nat.not_lt.1 h, rfl⟩

theorem issue_busy (v : Word) {s : State} (h : s.status.busy = true) : issue v s = .next (discard s) := by
  simp [issue, h]

/-- What a command issue does while BUSY = 0 (R92). -/
theorem issue_idle (v : Word) {s : State} (h : s.status.busy = false) :
    (decode v = .illegal ∧ issue v s = .next (raiseError .illegalCmd s)) ∨
      (decode v = .domain ∧ issue v s = .next (raiseError .domain s)) ∨
      (∃ i, decode v = .command i ∧ issue v s = .next (commandEffect i s)) := by
  unfold issue
  simp only [h, Bool.false_eq_true, if_false]
  cases hd : decode v with
  | command i => exact .inr (.inr ⟨i, rfl, exec_idle i h⟩)
  | illegal => exact .inl ⟨rfl, rfl⟩
  | domain => exact .inr (.inl ⟨rfl, rfl⟩)

theorem ofOffset_offset (r : RegName) : RegName.ofOffset r.offset = some r := by
  cases r <;> decide

theorem ofOffset_some {off : Word} {r : RegName} (h : RegName.ofOffset off = some r) : off = r.offset := by
  unfold RegName.ofOffset at h
  repeat' split at h
  all_goals first | (cases h; assumption) | cases h

/-- A RegWrite issues a command, writes LEN, or has no effect (R98). -/
theorem regWrite_eq (off v : Word) (s : State) :
    (off = 0x00#32 ∧ regWrite off v s = issue v s) ∨
      (off = 0x04#32 ∧ regWrite off v s = .next (whenIdle (setLen v) s)) ∨
      (off ≠ 0x00#32 ∧ off ≠ 0x04#32 ∧ regWrite off v s = .next s) := by
  unfold regWrite
  cases h : RegName.ofOffset off with
  | none =>
    refine .inr (.inr ⟨?_, ?_, rfl⟩) <;> rintro rfl <;> cases h
  | some r => cases ofOffset_some h; cases r <;> simp [RegName.offset]

/-- What an ENGINE turn does, by stage (R130). -/
theorem engineStep_cases (s : State) :
    (s.stage = .idle ∧ engineStep s = s) ∨ (s.stage = .pad ∧ engineStep s = padStep s) ∨
      (s.stage = .agg ∧ engineStep s = aggStep s) ∨ (s.stage = .fin ∧ engineStep s = finStep s) := by
  cases h : s.stage <;> simp [engineStep, h]

theorem issue_total (v : Word) (s : State) : ∃ t, issue v s = .next t := by
  cases h : s.status.busy with
  | true => exact ⟨_, issue_busy v h⟩
  | false =>
    obtain ⟨-, h'⟩ | ⟨-, h'⟩ | ⟨i, -, h'⟩ := issue_idle v h
    all_goals exact ⟨_, h'⟩

theorem step_cons {s : State} {t : Turn} {ts : List Turn} (h : s.agenda = t :: ts) :
    step s = takeTurn t { s with agenda := ts } := by
  simp [step, scheduled, h]

theorem step_nil {s : State} (h : s.agenda = []) : step s = .next (engineStep s) := by
  obtain ⟨⟩ := s
  cases h
  rfl

/-- A step is its turn, taken with the turn off the agenda. -/
theorem step_eq (s : State) : step s = takeTurn s.turn { s with agenda := s.agenda.tail } := by
  unfold step State.turn
  cases s.agenda <;> rfl

/-- Everything a step can do: `s` is the state before, `u` the same with the turn off the agenda, the index the state
after. -/
inductive StepCase (s u : State) : State → Prop where
  | engineIdle (ht : s.turn = .engine) (hg : s.stage = .idle) : StepCase s u u
  | pad (ht : s.turn = .engine) (hg : s.stage = .pad) : StepCase s u (padStep u)
  | agg (ht : s.turn = .engine) (hg : s.stage = .agg) : StepCase s u (aggStep u)
  | fin (ht : s.turn = .engine) (hg : s.stage = .fin) : StepCase s u (finStep u)
  | regRead (off : Word) (ht : s.turn = .host (.regRead off)) : StepCase s u (reply (.reg off (regRead off u)) u)
  | bufRead (i : Word) (ht : s.turn = .host (.bufRead i)) : StepCase s u (reply (.buf i (memRead i.toNat u)) u)
  | reset (ht : s.turn = .host .reset) : StepCase s u (resetBlock u)
  | discard (h : s.discards) : StepCase s u (discard u)
  | setLen (v : Word) (ht : s.turn = .host (.regWrite 0x04#32 v)) (hb : s.status.busy = false) :
      StepCase s u (setLen v u)
  | ignored (off v : Word) (ht : s.turn = .host (.regWrite off v)) (h0 : off ≠ 0x00#32) (h4 : off ≠ 0x04#32) :
      StepCase s u u
  | bufWrite (i : Word) (b : Byte) (ht : s.turn = .host (.bufWrite i b)) (hb : s.status.busy = false) :
      StepCase s u (memWrite i.toNat b u)
  | illegal (v : Word) (hi : s.issues v) (hd : decode v = .illegal) : StepCase s u (raiseError .illegalCmd u)
  | domain (v : Word) (hi : s.issues v) (hd : decode v = .domain) : StepCase s u (raiseError .domain u)
  | nop (v : Word) (hi : s.issues v) (hd : decode v = .command .nop) : StepCase s u u
  | clear (v : Word) (hi : s.issues v) (hd : decode v = .command .clear) : StepCase s u (clearResults u)
  | length (v : Word) (w : Width) (hi : s.issues v) (hd : decode v = .command w.command)
      (hl : s.maxLen.toNat < s.len.toNat) : StepCase s u (raiseError .length u)
  | accept (v : Word) (w : Width) (hi : s.issues v) (hd : decode v = .command w.command)
      (hl : s.len.toNat ≤ s.maxLen.toNat) : StepCase s u (acceptCompute w u)

theorem stepCase_compute {s : State} {v : Word} (w : Width) (hi : s.issues v) (hd : decode v = .command w.command) :
    StepCase s { s with agenda := s.agenda.tail } (issueCompute w { s with agenda := s.agenda.tail }) := by
  obtain ⟨hl, h⟩ | ⟨hl, h⟩ := issueCompute_cases w { s with agenda := s.agenda.tail } <;> rw [h]
  · exact .length v w hi hd hl
  · exact .accept v w hi hd hl

theorem step_case_issue {s t : State} {v : Word} (ht : s.turn = .host (.regWrite 0x00#32 v))
    (h : issue v { s with agenda := s.agenda.tail } = .next t) :
    StepCase s { s with agenda := s.agenda.tail } t := by
  cases hb : s.status.busy with
  | true =>
    rw [issue_busy v (s := { s with agenda := s.agenda.tail }) hb] at h
    cases h
    exact .discard ⟨hb, .inl ⟨v, ht⟩⟩
  | false =>
    obtain ⟨hd, h'⟩ | ⟨hd, h'⟩ | ⟨i, hd, h'⟩ := issue_idle v (s := { s with agenda := s.agenda.tail }) hb <;>
      rw [h'] at h <;> cases h
    · exact .illegal v ⟨ht, hb⟩ hd
    · exact .domain v ⟨ht, hb⟩ hd
    · cases i with
      | nop => exact .nop v ⟨ht, hb⟩ hd
      | clear => exact .clear v ⟨ht, hb⟩ hd
      | compute8 => exact stepCase_compute .w8 ⟨ht, hb⟩ hd
      | compute16 => exact stepCase_compute .w16 ⟨ht, hb⟩ hd
      | compute32 => exact stepCase_compute .w32 ⟨ht, hb⟩ hd

/-- The inversion of a step. -/
theorem step_case {s t : State} (h : step s = .next t) : StepCase s { s with agenda := s.agenda.tail } t := by
  rw [step_eq] at h
  cases ht : s.turn with
  | engine =>
    simp only [ht, takeTurn] at h
    cases h
    obtain ⟨hg, h'⟩ | ⟨hg, h'⟩ | ⟨hg, h'⟩ | ⟨hg, h'⟩ := engineStep_cases { s with agenda := s.agenda.tail } <;> rw [h']
    · exact .engineIdle ht hg
    · exact .pad ht hg
    · exact .agg ht hg
    · exact .fin ht hg
  | host op =>
    simp only [ht, takeTurn, hostOp] at h
    cases op with
    | regRead off => cases h; exact .regRead off ht
    | bufRead i => cases h; exact .bufRead i ht
    | reset => cases h; exact .reset ht
    | bufWrite i b =>
      cases h
      cases hb : s.status.busy with
      | true =>
        rw [bufWrite, whenIdle_busy _ (s := { s with agenda := s.agenda.tail }) hb]
        exact .discard ⟨hb, .inr (.inr ⟨i, b, ht⟩)⟩
      | false =>
        rw [bufWrite, whenIdle_idle _ (s := { s with agenda := s.agenda.tail }) hb]
        exact .bufWrite i b ht hb
    | regWrite off v =>
      obtain ⟨rfl, h'⟩ | ⟨rfl, h'⟩ | ⟨h0, h4, h'⟩ := regWrite_eq off v { s with agenda := s.agenda.tail } <;>
        simp only [h'] at h
      · exact step_case_issue ht h
      · cases h
        cases hb : s.status.busy with
        | true =>
          rw [whenIdle_busy _ (s := { s with agenda := s.agenda.tail }) hb]
          exact .discard ⟨hb, .inr (.inl ⟨v, ht⟩)⟩
        | false =>
          rw [whenIdle_idle _ (s := { s with agenda := s.agenda.tail }) hb]
          exact .setLen v ht hb
      · cases h; exact .ignored off v ht h0 h4

end Sys2Proof.Machine
end

