-- ==== Sys2Proof/Tests/Slice0.lean ====
section
/-! SUPPORT. Small tests, each with the place in spec/ its expected result comes from, and for each statement of
Certificates/Slice0/Obligations.lean a witness that meets its hypotheses. -/

namespace Sys2Proof.Tests

open Sys2Proof Sys2Proof.Machine

/-! ## Helpers -/

/-- The next state of an outcome. -/
def after : Host.Outcome State Fault Refusal → Option State
  | .next s => some s
  | .fault _ => none
  | .refused _ => none

/-- The state after reset with MAX_LEN = 16, the start state of the vectors of 95_test_vectors.md. -/
def s16 : State := { State.reset with maxLen := 16#32 }

/-- STATUS from its word's fields. -/
def st (busy done err busyErr : Bool) (code : BitVec 4) : Status :=
  { busy := busy, done := done, err := err, busyErr := busyErr, errCode := code }

/-- `s` with one turn to take. -/
def turning (t : Turn) (s : State) : State := { s with agenda := [t] }

/-- `s` about to issue the word `v`. -/
def issuing (v : Word) (s : State) : State := turning (.host (.regWrite 0x00#32 v)) s

/-- The bytes of V1, P1: [0x01, 0x02, 0x03]. -/
def bytesV1 : Memory := [(0, 0x01#8), (1, 0x02#8), (2, 0x03#8)]

/-- COMPUTE 16 over V1 accepted. -/
def padV1 : State :=
  { s16 with
    len := 3#32, inbuf := bytesV1, stage := .pad, widthL := .w16, lenL := 3#32
    status := st true false false false 0#4 }

/-- The same after PAD (P1: PADN = 1, PLEN = 4, POS = 0). -/
def aggV1 : State := { padV1 with stage := .agg, padN := 1#2, pLen := 4#32, pos := 0#32 }

/-- The same after the first AGG step (P1: ACC = 0x102, POS = 2). -/
def aggLastV1 : State := { aggV1 with acc := 0x102#32, pos := 2#32 }

/-- The same after the second (P1: ACC = 0x45A, POS = 4, STAGE = FIN). -/
def finV1 : State := { aggLastV1 with acc := 0x45A#32, pos := 4#32, stage := .fin }

/-- The same after FIN (P1). -/
def doneV1 : State :=
  { finV1 with
    result := 0x45A#32, count := 3#32, stage := .idle, status := st false true false false 0#4 }

/-- Width 8 at its second byte, [0x10, 0xF0, 0x10] (V3). -/
def aggV3 : State :=
  { s16 with
    len := 3#32, inbuf := [(0, 0x10#8), (1, 0xF0#8), (2, 0x10#8)], stage := .agg, widthL := .w8, lenL := 3#32
    pLen := 3#32, pos := 1#32, acc := 0x10#32, status := st true false false false 0#4 }

/-- Width 32 at its second word, five bytes 0xFF (V2). -/
def aggV2 : State :=
  { s16 with
    len := 5#32, inbuf := [(0, 0xFF#8), (1, 0xFF#8), (2, 0xFF#8), (3, 0xFF#8), (4, 0xFF#8)], stage := .agg
    widthL := .w32, lenL := 5#32, padN := 3#2, pLen := 8#32, pos := 4#32, acc := 0xFFFFFFFF#32
    status := st true false false false 0#4 }

/-! ## Well-formedness: an ill-formed term for each check -/

theorem test_wf_legal : ∀ i ∈ [Instr.nop, .compute8, .compute16, .compute32, .clear], i.wf = true := by decide

theorem test_wf_rsvd_refused : CommandFields.wf { op := 0x01#8, width := 8#8, rsvd := 1#16 } = false := by decide

theorem test_wf_reserved_op_refused : CommandFields.wf { op := 0x03#8, width := 0#8, rsvd := 0#16 } = false := by decide

theorem test_wf_compute_width_refused : CommandFields.wf { op := 0x01#8, width := 24#8, rsvd := 0#16 } = false := by
  decide

theorem test_wf_clear_width_refused : CommandFields.wf { op := 0x02#8, width := 8#8, rsvd := 0#16 } = false := by decide

/-- The canonical form refuses indices out of order and an index at the capacity (R30, R50). -/
theorem test_memory_wf_refuses :
    Memory.wf 16 [(1, 0#8), (0, 0#8)] = false ∧ Memory.wf 16 [(1, 0#8), (1, 0#8)] = false ∧
      Memory.wf 16 [(16, 0#8)] = false ∧ Memory.wf 16 [(0, 0#8), (15, 0#8)] = true := by decide

/-! ## Decoding: words written out from R71 as RSVD, WIDTH, OP (vectors T1) -/

theorem test_decode_nop : decode 0b0000000000000000_00000000_00000000#32 = .command .nop := by decide

theorem test_decode_compute8 : decode 0b0000000000000000_00001000_00000001#32 = .command .compute8 := by decide

theorem test_decode_compute16 : decode 0b0000000000000000_00010000_00000001#32 = .command .compute16 := by decide

theorem test_decode_compute32 : decode 0b0000000000000000_00100000_00000001#32 = .command .compute32 := by decide

theorem test_decode_clear : decode 0b0000000000000000_00000000_00000010#32 = .command .clear := by decide

theorem test_decode_domain :
    [0x00001801#32, 0x00000001#32, 0x00004001#32, 0x0000FF01#32].map decode = List.replicate 4 .domain := by decide

theorem test_decode_illegal :
    [0x00010801#32, 0x00011801#32, 0x00000003#32, 0x000000FF#32, 0x00000100#32, 0x00000802#32, 0x00000102#32,
      0x80000000#32, 0xFFFFFFFF#32].map decode = List.replicate 9 .illegal := by decide

theorem test_decodeTableWord :
    decodeTableWord 32 0x00000801 = some .compute8 ∧ decodeTableWord 32 0x00000002 = some .clear ∧
      decodeTableWord 32 0x00001801 = none := by decide

/-! ## Commands (vectors T5) -/

theorem test_nop_keeps_status :
    (after (exec .nop { s16 with status := st false false true false 2#4 })).map (fun t => t.status.word) =
      some 0x00000024#32 := by decide

theorem test_nop_busy : (after (exec .nop padV1)).map (fun t => t.status.word) = some 0x00000009#32 := by decide

theorem test_compute8_length :
    (after (exec .compute8 { s16 with len := 17#32 })).map (fun t => (t.status.word, t.stage)) =
      some (0x00000034#32, .idle) := by decide

theorem test_compute8_accepted_at_capacity :
    (after (exec .compute8 { s16 with len := 16#32, acc := 5#32 })).map
      (fun t => (t.status.word, t.lenL, t.acc, t.stage, t.widthL)) =
      some (0x00000001#32, 16#32, 0#32, .pad, .w8) := by decide

theorem test_compute16_clears_error :
    (after (exec .compute16 { s16 with len := 3#32, status := st false false true false 2#4 })).map
      (fun t => (t.status.word, t.widthL)) = some (0x00000001#32, .w16) := by decide

theorem test_compute16_busyerr_survives :
    (after (exec .compute16 { s16 with status := st false true false true 0#4 })).map (fun t => t.status.word) =
      some 0x00000009#32 := by decide

theorem test_compute32_length :
    (after (exec .compute32 { s16 with len := 0xFFFFFFFF#32 })).map (fun t => t.status.word) =
      some 0x00000034#32 := by decide

theorem test_compute32_accepted :
    (after (exec .compute32 s16)).map (fun t => (t.status.word, t.widthL)) = some (0x00000001#32, .w32) := by decide

theorem test_clear :
    (after (exec .clear { s16 with acc := 1#32, result := 2#32, count := 3#32, status := st false false true true 2#4 })).map
      (fun t => (t.status.word, t.acc, t.result, t.count)) = some (0x00000000#32, 0#32, 0#32, 0#32) := by decide

theorem test_clear_busy :
    (after (exec .clear padV1)).map (fun t => (t.status.word, t.stage)) = some (0x00000009#32, .pad) := by decide

theorem test_domain_before_length :
    (after (issue 0x00001801#32 { s16 with len := 0xFFFFFFFF#32 })).map (fun t => t.status.word) =
      some 0x00000024#32 := by decide

theorem test_illegal_before_domain :
    (after (issue 0x00011801#32 s16)).map (fun t => t.status.word) = some 0x00000014#32 := by decide

/-! ## Host operations (vectors T5, T6) -/

theorem test_regRead_map :
    [0x00#32, 0x02#32, 0x04#32, 0x08#32, 0x0C#32, 0x10#32, 0x14#32, 0x18#32, 0x1C#32, 0xFC#32, 0x100#32].map
      (fun off => regRead off doneV1) =
      [0#32, 0#32, 3#32, 2#32, 0x45A#32, 0x45A#32, 3#32, 16#32, 0#32, 0#32, 0#32] := by decide

theorem test_regWrite_len :
    (after (regWrite 0x04#32 0xFFFFFFFF#32 s16)).map (fun t => t.len) = some 0xFFFFFFFF#32 ∧
      (after (regWrite 0x06#32 5#32 s16)).map (fun t => t.len) = some 0#32 := by decide

theorem test_regWrite_len_busy :
    (after (regWrite 0x04#32 9#32 padV1)).map (fun t => (t.status.word, t.len)) = some (0x00000009#32, 3#32) := by
  decide

theorem test_regWrite_result_busy :
    (after (regWrite 0x10#32 9#32 padV1)).map (fun t => (t.status.word, t.result)) = some (0x00000001#32, 0#32) := by
  decide

theorem test_bufWrite_then_read : memRead 3 (bufWrite 3#32 0x77#8 s16) = 0x77#8 := by decide

theorem test_bufWrite_out_of_range :
    bufWrite 16#32 0x77#8 s16 = s16 ∧ memRead 16 (bufWrite 16#32 0x77#8 s16) = 0x00#8 := by decide

theorem test_bufWrite_busy :
    (bufWrite 0#32 0xEE#8 padV1).status.word = 0x00000009#32 ∧ memRead 0 (bufWrite 0#32 0xEE#8 padV1) = 0x01#8 := by
  decide

theorem test_reset_while_busy :
    (after (hostOp .reset padV1)).map (fun t => (t.status.word, t.stage, t.maxLen, t.len)) =
      some (0x00000000#32, .idle, 16#32, 0#32) := by decide

theorem test_reads_reply :
    (after (hostOp (.regRead 0x0C#32) aggLastV1)).map (fun t => t.replies) = some [.reg 0x0C#32 0x102#32] ∧
      (after (hostOp (.bufRead 1#32) aggLastV1)).map (fun t => t.replies) = some [.buf 1#32 0x02#8] := by decide

/-! ## Data path (vectors T2, T3) -/

theorem test_padCount :
    (List.range 9).map (fun n => (padCount n .w8, padCount n .w16, padCount n .w32)) =
      [(0, 0, 0), (0, 1, 3), (0, 0, 2), (0, 1, 1), (0, 0, 0), (0, 1, 3), (0, 0, 2), (0, 1, 1), (0, 0, 0)] := by decide

theorem test_word_full :
    wordAt (fun i => [0x12#8, 0x34#8, 0x56#8, 0x78#8].getD i 0#8) 0 4 4 = 0x12345678#32 ∧
      wordAt (fun i => [0x00#8, 0x03#8, 0x58#8].getD i 0#8) 1 2 2 = 0x0358#32 := by decide

theorem test_word_partial :
    wordAt (fun _ => 0xAB#8) 0 2 1 = 0xAB00#32 ∧
      wordAt (fun i => [0xAB#8, 0xCD#8].getD i 0xFF#8) 0 4 2 = 0xABCD0000#32 ∧
      wordAt (fun i => [0x01#8, 0x02#8, 0x03#8].getD i 0xFF#8) 0 4 3 = 0x01020300#32 := by decide

theorem test_checksum_scenarios :
    checksum [0x01#8, 0x02#8, 0x03#8] .w16 = 0x045A#32 ∧
      checksum [0xFF#8, 0xFF#8, 0xFF#8, 0xFF#8, 0xFF#8] .w32 = 0xFF585857#32 ∧
      checksum [0x10#8, 0xF0#8, 0x10#8] .w8 = 0x10#32 := by decide

/-! ## Engine steps (P1, V2, V3) -/

theorem test_pad_step : engineStep padV1 = aggV1 := by decide

theorem test_pad_step_empty :
    (engineStep { padV1 with lenL := 0#32 }).stage = .fin ∧ (engineStep { padV1 with lenL := 0#32 }).pLen = 0#32 := by
  decide

theorem test_agg_step : engineStep aggV1 = aggLastV1 := by decide

theorem test_agg_step_filler : engineStep aggLastV1 = finV1 := by decide

theorem test_agg_step_width8_masks : (engineStep aggV3).acc = 0x00#32 := by decide

theorem test_agg_step_width32_wraps : (engineStep aggV2).acc = 0xFF585857#32 ∧ (engineStep aggV2).stage = .fin := by
  decide

theorem test_fin_step : engineStep finV1 = doneV1 := by decide

/-- P6: the width-16 accumulator 0x0002FF56 is masked to 0xFF56 at FIN; BUSYERR survives FIN (T5). -/
theorem test_fin_step_masks :
    (engineStep { finV1 with acc := 0x0002FF56#32, status := st true false false true 0#4 }).result = 0xFF56#32 ∧
      (engineStep { finV1 with status := st true false false true 0#4 }).status.word = 0x0000000A#32 := by decide

/-! ## The step, the placing of a word, the host program syntax -/

theorem test_step_takes_word_from_reset :
    [0x00000000, 0x00000801, 0x00001001, 0x00002001, 0x00000002].map
      (fun w => (after (step (State.reset.withFetchWord 32 w))).map (fun t => t.stage)) =
      [some .idle, some .pad, some .pad, some .pad, some .idle] := by decide

theorem test_step_engine_when_agenda_empty : after (step aggV1) = some aggLastV1 := by decide

theorem test_step_waits_when_idle : after (step doneV1) = some doneV1 := by decide

theorem test_lines :
    (HostLine.compute 24#8).op = .regWrite 0x00#32 0x00001801#32 ∧
      (csumLines 16#8 [0x01#8, 0x02#8] 1).map HostLine.op =
        [.bufWrite 0#32 0x01#8, .bufWrite 1#32 0x02#8, .regWrite 0x04#32 2#32, .regWrite 0x00#32 0x00001001#32,
          .regRead 0x08#32, .regRead 0x10#32, .regRead 0x14#32] ∧
      scheduleLines [0, 2] [.nop, .reset] =
        [.host (.regWrite 0x00#32 0#32), .engine, .engine, .host .reset] := by decide

theorem test_report_digits : reportDigits .w16 0x045A#32 = [0x0#4, 0x4#4, 0x5#4, 0xA#4] := by decide

/-! ## Witnesses: states that meet the invariants -/

theorem s16_inv : s16.Inv := by
  constructor <;> decide

theorem padV1_inv : padV1.Inv := by
  constructor <;> decide

theorem aggV1_inv : aggV1.Inv := by
  constructor <;> decide

theorem aggLastV1_inv : aggLastV1.Inv := by
  constructor <;> decide

theorem aggV2_inv : aggV2.Inv := by
  constructor <;> decide

theorem aggV3_inv : aggV3.Inv := by
  constructor <;> decide

theorem finV1_inv : finV1.Inv := by
  constructor <;> decide

theorem doneV1_inv : doneV1.Inv := by
  constructor <;> decide

theorem aggLastV1_sums : aggLastV1.Sums := by
  constructor <;> decide

theorem finV1_sums : finV1.Sums := by
  constructor <;> decide

/-! ## Witnesses: encoding and commands -/

/-- One word for each clause of the precedence, with its RSVD, OP and WIDTH. -/
theorem witness_DecodePrecedence :
    [0x00010801#32, 0x80000000#32, 0x0#32, 0x100#32, 0x2#32, 0x802#32, 0x801#32, 0x1001#32, 0x2001#32, 0x1801#32, 0x1#32,
      0x3#32, 0xFF#32].map (fun v => (rsvdField v, opField v, widthField v)) =
      [(1#16, 1#8, 8#8), (0x8000#16, 0#8, 0#8), (0#16, 0#8, 0#8), (0#16, 0#8, 1#8), (0#16, 2#8, 0#8), (0#16, 2#8, 8#8),
        (0#16, 1#8, 8#8), (0#16, 1#8, 16#8), (0#16, 1#8, 32#8), (0#16, 1#8, 24#8), (0#16, 1#8, 0#8), (0#16, 3#8, 0#8),
        (0#16, 255#8, 0#8)] := by decide

theorem witness_DecodePrecedence_issue :
    s16.status.busy = false ∧ decode 0x3#32 = .illegal ∧ decode 0x1801#32 = .domain := by decide

theorem witness_NopEffect :
    s16.status.busy = false ∧ padV1.status.busy = true ∧ (0x00000100#32).extractLsb' 0 8 = 0x00#8 ∧
      (0x00000100#32).extractLsb' 8 8 ≠ 0#8 ∧ (0x80000000#32).extractLsb' 0 8 = 0x00#8 ∧
      (0x80000000#32).extractLsb' 16 16 ≠ 0#16 := by decide

theorem witness_ClearEffect :
    ∃ t, step (issuing 0x2#32 { s16 with status := st false false false true 0#4 }) = .next t ∧
      t.status.busyErr = false :=
  ⟨_, rfl, rfl⟩

theorem witness_ComputeAccepted :
    s16.status.busy = false ∧ s16.len.toNat ≤ s16.maxLen.toNat ∧
      ({ s16 with len := 16#32 } : State).len.toNat ≤ ({ s16 with len := 16#32 } : State).maxLen.toNat := by decide

theorem witness_ComputeAccepted_running :
    (∃ t, step aggV1 = .next t) ∧ aggV1.stage ≠ .idle ∧ ¬aggV1.engineAt .fin ∧ ¬aggV1.resetting :=
  ⟨⟨_, rfl⟩, by decide, fun h => absurd h.2 (by decide), fun h => (by cases h)⟩

/-- One COMPUTE word for each clause of the checks, with its RSVD, OP and WIDTH. -/
theorem witness_ComputeIssueChecks_words :
    [0x00010801#32, 0x00001801#32, 0x00000801#32, 0x00001001#32, 0x00002001#32].map
      (fun v => (rsvdField v, opField v, widthField v)) =
      [(1#16, 1#8, 8#8), (0#16, 1#8, 24#8), (0#16, 1#8, 8#8), (0#16, 1#8, 16#8), (0#16, 1#8, 32#8)] := by decide

theorem witness_ComputeIssueChecks_len :
    s16.status.busy = false ∧ s16.maxLen.toNat < (17#32).toNat ∧ (16#32).toNat ≤ s16.maxLen.toNat := by decide

theorem witness_ComputeIssueChecks_no_width : ∀ w : Width, ((0x00001801#32).extractLsb' 8 8).toNat ≠ w.bits := by
  intro w; cases w <;> decide

theorem witness_CommandErrorEffect_illegal : (issuing 0x00010801#32 s16).errs .illegalCmd :=
  ⟨_, ⟨rfl, rfl⟩, .inl (by decide)⟩

theorem witness_CommandErrorEffect_reserved_op : (issuing 0x00000003#32 s16).errs .illegalCmd :=
  ⟨_, ⟨rfl, rfl⟩, .inr (.inl (by decide))⟩

theorem witness_CommandErrorEffect_nop_width : (issuing 0x00000100#32 s16).errs .illegalCmd :=
  ⟨_, ⟨rfl, rfl⟩, .inr (.inr (by decide))⟩

theorem witness_CommandErrorEffect_domain : (issuing 0x00001801#32 s16).errs .domain :=
  ⟨_, ⟨rfl, rfl⟩, by decide, by decide, by decide, by decide, by decide⟩

theorem witness_CommandErrorEffect_length : (issuing 0x00000801#32 { s16 with len := 17#32 }).errs .length :=
  ⟨.w8, ⟨by decide, rfl⟩, by decide⟩

theorem witness_CommandFrame : ∀ i : Instr, ∃ t, exec i s16 = .next t := by
  intro i; cases i <;> exact ⟨_, rfl⟩

theorem witness_StepRunsIssuedCommand :
    (issuing 0x00000801#32 s16).agenda = .host (.regWrite 0x00#32 0x00000801#32) :: [] ∧
      (issuing 0x00000801#32 s16).status.busy = false ∧ decode 0x00000801#32 = .command .compute8 ∧
      (issuing 0x00000801#32 padV1).status.busy = true ∧ decode 0x00000003#32 = .illegal ∧
      decode 0x00001801#32 = .domain := by decide

theorem witness_FetchedWordRuns : decodeTableWord 32 0x00002001 = some .compute32 := by decide

/-! ## Witnesses: host operations -/

theorem witness_RegWriteEffects :
    (0x02#32).toNat % 4 ≠ 0 ∧ 0x18 < (0x1C#32).toNat ∧ (0x00#32).toNat = 0x00 ∧ (0x04#32).toNat = 0x04 ∧
      padV1.status.busy = true ∧ s16.status.busy = false ∧ (0x08#32).toNat = 0x08 ∧ (0x18#32).toNat = 0x18 := by decide

theorem witness_BufWriteEffect :
    padV1.status.busy = true ∧ s16.status.busy = false ∧ (0#32).toNat < s16.maxLen.toNat ∧
      (15#32).toNat < s16.maxLen.toNat ∧ s16.maxLen.toNat ≤ (16#32).toNat := by decide

theorem witness_BufReadEffect :
    s16.maxLen.toNat ≤ (16#32).toNat ∧ (0#32).toNat < padV1.lenL.toNat ∧ (2#32).toNat < padV1.lenL.toNat := by decide

theorem witness_SideEffects :
    (∃ t, takeTurn (.host (.regWrite 0x04#32 7#32)) s16 = .next t) ∧
      (∃ t, takeTurn (.host (.bufWrite 15#32 7#8)) s16 = .next t) ∧
      (∃ t, takeTurn (.host (.bufWrite 0#32 7#8)) padV1 = .next t) ∧ 0x08#32 ≠ 0x00#32 ∧ 0x08#32 ≠ 0x04#32 :=
  ⟨⟨_, rfl⟩, ⟨_, rfl⟩, ⟨_, rfl⟩, by decide, by decide⟩

theorem witness_BusyWritesDiscarded : padV1.status.busy = true ∧ aggV3.status.busy = true ∧ finV1.status.busy = true := by
  decide

theorem witness_ResetValues : ∃ t, takeTurn (.host .reset) padV1 = .next t := ⟨_, rfl⟩

theorem witness_ResetAbandonsComputation :
    (∃ t, step finV1 = .next t ∧ finV1.status.busy = true ∧ t.status.busy = false) ∧
      (∃ t, step (turning (.host .reset) aggV1) = .next t ∧ aggV1.status.busy = true ∧ t.status.busy = false) ∧
      ∃ t, padV1.status.busy = true ∧ exec .clear padV1 = .next t :=
  ⟨⟨_, rfl, rfl, rfl⟩, ⟨_, rfl, rfl, rfl⟩, ⟨_, rfl, rfl⟩⟩

/-! ## Witnesses: engine steps -/

theorem witness_PadStepEffect : s16.stage = .idle ∧ padV1.stage ≠ .idle ∧ padV1.stage = .pad := by decide

theorem witness_AggStepEffect :
    aggV1.stage = .agg ∧ aggLastV1.stage = .agg ∧ aggV2.stage = .agg ∧ aggV3.stage = .agg := by decide

theorem witness_AggStepAddsFullWord :
    (aggV3.Inv ∧ aggV3.stage = .agg ∧ aggV3.widthL = .w8) ∧
      (aggLastV1.Inv ∧ aggLastV1.stage = .agg ∧ aggLastV1.widthL = .w16) ∧
      (aggV2.Inv ∧ aggV2.stage = .agg ∧ aggV2.widthL = .w32) :=
  ⟨⟨aggV3_inv, rfl, rfl⟩, ⟨aggLastV1_inv, rfl, rfl⟩, ⟨aggV2_inv, rfl, rfl⟩⟩

theorem witness_WordAssembly : 0 < Width.w8.nb ∧ 1 < Width.w16.nb ∧ 3 < Width.w32.nb := by decide

theorem witness_FinStepEffect : finV1.stage = .fin := rfl

theorem witness_EngineRaisesNoError :
    ∃ t, step (issuing 0x00000003#32 s16) = .next t ∧ s16.status.err = false ∧ t.status.err = true :=
  ⟨_, rfl, rfl, rfl⟩

theorem witness_EngineFrame :
    (∃ t, takeTurn .engine finV1 = .next t) ∧ (∃ t, takeTurn .engine aggV1 = .next t ∧ aggV1.stage ≠ .fin) :=
  ⟨⟨_, rfl⟩, ⟨_, rfl, by decide⟩⟩

/-! ## Witnesses: the events of a step, each of which is the premise of a clause of the statements on who writes what -/

theorem witness_engineAt :
    (∃ t, step s16 = .next t ∧ s16.engineAt .idle) ∧ (∃ t, step padV1 = .next t ∧ padV1.engineAt .pad) ∧
      (∃ t, step aggV1 = .next t ∧ aggV1.engineAt .agg) ∧ (∃ t, step finV1 = .next t ∧ finV1.engineAt .fin) :=
  ⟨⟨_, rfl, rfl, rfl⟩, ⟨_, rfl, rfl, rfl⟩, ⟨_, rfl, rfl, rfl⟩, ⟨_, rfl, rfl, rfl⟩⟩

theorem witness_accepts :
    (∃ t, step (issuing 0x00000801#32 s16) = .next t ∧ (issuing 0x00000801#32 s16).accepts .w8) ∧
      (∃ t, step (issuing 0x00001001#32 s16) = .next t ∧ (issuing 0x00001001#32 s16).accepts .w16) ∧
      (∃ t, step (issuing 0x00002001#32 { s16 with len := 16#32 }) = .next t ∧
        (issuing 0x00002001#32 { s16 with len := 16#32 }).accepts .w32) :=
  ⟨⟨_, rfl, ⟨by decide, rfl⟩, by decide⟩, ⟨_, rfl, ⟨by decide, rfl⟩, by decide⟩, ⟨_, rfl, ⟨by decide, rfl⟩, by decide⟩⟩

theorem witness_clears : ∃ t, step (issuing 0x2#32 doneV1) = .next t ∧ (issuing 0x2#32 doneV1).clears :=
  ⟨_, rfl, rfl, rfl⟩

theorem witness_resetting :
    ∃ t, step (turning (.host .reset) padV1) = .next t ∧ (turning (.host .reset) padV1).resetting :=
  ⟨_, rfl, rfl⟩

theorem witness_errs :
    (∃ t, step (issuing 0x00000003#32 s16) = .next t ∧ (issuing 0x00000003#32 s16).errs .illegalCmd) ∧
      (∃ t, step (issuing 0x00000001#32 s16) = .next t ∧ (issuing 0x00000001#32 s16).errs .domain) ∧
      (∃ t, step (issuing 0x00000801#32 { s16 with len := 17#32 }) = .next t ∧
        (issuing 0x00000801#32 { s16 with len := 17#32 }).errs .length) :=
  ⟨⟨_, rfl, _, ⟨rfl, rfl⟩, .inr (.inl (by decide))⟩,
    ⟨_, rfl, _, ⟨rfl, rfl⟩, by decide, by decide, by decide, by decide, by decide⟩,
    ⟨_, rfl, .w8, ⟨by decide, rfl⟩, by decide⟩⟩

theorem witness_discards :
    (∃ t, step (issuing 0#32 padV1) = .next t ∧ (issuing 0#32 padV1).discards) ∧
      (∃ t, step (turning (.host (.regWrite 0x04#32 9#32)) padV1) = .next t ∧
        (turning (.host (.regWrite 0x04#32 9#32)) padV1).discards) ∧
      (∃ t, step (turning (.host (.bufWrite 16#32 9#8)) padV1) = .next t ∧
        (turning (.host (.bufWrite 16#32 9#8)) padV1).discards) :=
  ⟨⟨_, rfl, rfl, .inl ⟨_, rfl⟩⟩, ⟨_, rfl, rfl, .inr (.inl ⟨_, rfl⟩)⟩, ⟨_, rfl, rfl, .inr (.inr ⟨_, _, rfl⟩)⟩⟩

/-- A NOP, which is none of the events, so it meets the clauses on what is kept. -/
theorem witness_no_event :
    (∃ t, step (issuing 0#32 s16) = .next t) ∧ (∀ g, ¬(issuing 0#32 s16).engineAt g) ∧
      (∀ w, ¬(issuing 0#32 s16).accepts w) ∧ ¬(issuing 0#32 s16).clears ∧ ¬(issuing 0#32 s16).resetting ∧
      (∀ e, ¬(issuing 0#32 s16).errs e) ∧ ¬(issuing 0#32 s16).discards ∧ (issuing 0#32 s16).turn ≠ .engine := by
  have hw : ∀ v, (issuing 0#32 s16).issues v → v = 0#32 := fun v h => by cases h.1; rfl
  have he : ∀ w : Width, encode w.command ≠ 0#32 := by intro w; cases w <;> decide
  refine ⟨⟨_, rfl⟩, fun g h => (by cases h.1), fun w h => he w (hw _ h.1), fun h => absurd (hw _ h) (by decide),
    fun h => (by cases h), ?_, fun h => (by cases h.1), by decide⟩
  intro e h
  cases e with
  | illegalCmd =>
    obtain ⟨v, h1, h2⟩ := h
    cases hw v h1
    exact absurd h2 (by simp [IllegalWord, rsvdField, opField, widthField])
  | domain =>
    obtain ⟨v, h1, h2⟩ := h
    cases hw v h1
    exact absurd h2.1 (by decide)
  | length => obtain ⟨w, h1, h2⟩ := h; exact he w (hw _ h1)

theorem witness_LenWrites :
    (∃ t, step (turning (.host (.regWrite 0x04#32 9#32)) s16) = .next t ∧ s16.status.busy = false) ∧
      (∃ w : Width, (issuing 0x00000801#32 { s16 with len := 17#32 }).issues (encode w.command) ∧
        s16.maxLen.toNat < (17#32).toNat) :=
  ⟨⟨_, rfl, rfl⟩, ⟨.w8, ⟨by decide, rfl⟩, by decide⟩⟩

theorem witness_InbufWrites :
    (∃ t, step (turning (.host (.bufWrite 15#32 9#8)) s16) = .next t ∧ s16.status.busy = false ∧
        (15#32).toNat < s16.maxLen.toNat) ∧
      (∃ t, step (turning (.host (.bufWrite 16#32 9#8)) s16) = .next t ∧ s16.maxLen.toNat ≤ (16#32).toNat) ∧
      (∃ t, step (turning (.host (.bufWrite 0#32 9#8)) padV1) = .next t ∧ padV1.status.busy = true) :=
  ⟨⟨_, rfl, rfl, by decide⟩, ⟨_, rfl, by decide⟩, ⟨_, rfl, rfl⟩⟩

theorem witness_AccWrites_done : doneV1.Inv ∧ doneV1.status.done = true := ⟨doneV1_inv, rfl⟩

theorem witness_BusyWrites_busy : padV1.Inv ∧ padV1.status.busy = true := ⟨padV1_inv, rfl⟩

theorem witness_StageMoves_idle : s16.Inv ∧ s16.status.busy = false := ⟨s16_inv, rfl⟩

theorem witness_PaddingRegisterWrites :
    (padV1.Inv ∧ padV1.engineAt .pad) ∧ (aggV2.Inv ∧ aggV2.stage = .agg) ∧ (finV1.Inv ∧ finV1.stage = .fin) :=
  ⟨⟨padV1_inv, rfl, rfl⟩, ⟨aggV2_inv, rfl⟩, ⟨finV1_inv, rfl⟩⟩

/-! ## Witnesses: invariants and outcomes -/

theorem witness_StepKeepsInvariants :
    (aggV1.Inv ∧ ∃ t, step aggV1 = .next t) ∧ (finV1.Inv ∧ ∃ t, step finV1 = .next t) ∧
      (padV1.Inv ∧ ∃ t, step padV1 = .next t) ∧ (s16.Inv ∧ ∃ t, step s16 = .next t) :=
  ⟨⟨aggV1_inv, _, rfl⟩, ⟨finV1_inv, _, rfl⟩, ⟨padV1_inv, _, rfl⟩, ⟨s16_inv, _, rfl⟩⟩

theorem witness_ResetMeetsInvariants : s16.maxLen.toNat ≤ 2 ^ 32 - 4 ∧ ∃ t, takeTurn (.host .reset) s16 = .next t :=
  ⟨by decide, _, rfl⟩

theorem witness_StepKeepsRunningSum :
    (aggLastV1.Inv ∧ aggLastV1.Sums ∧ ∃ t, step aggLastV1 = .next t) ∧
      (finV1.Inv ∧ finV1.Sums ∧ ∃ t, step finV1 = .next t) :=
  ⟨⟨aggLastV1_inv, aggLastV1_sums, _, rfl⟩, ⟨finV1_inv, finV1_sums, _, rfl⟩⟩

theorem witness_InvariantsOfRegisters :
    (finV1.Inv ∧ ∃ t, step finV1 = .next t ∧ t.status.done = true ∧ t.status.busy = false) ∧
      (padV1.Inv ∧ ∃ t, step padV1 = .next t ∧ t.stage = .agg) ∧
      (aggLastV1.Inv ∧ ∃ t, step aggLastV1 = .next t ∧ t.stage = .fin) :=
  ⟨⟨finV1_inv, _, rfl, rfl, rfl⟩, ⟨padV1_inv, _, rfl, rfl⟩, ⟨aggLastV1_inv, _, rfl, rfl⟩⟩

theorem witness_BufferFormIsCanonical :
    Memory.wf 16 bytesV1 = true ∧ (∀ i, Memory.lookup i bytesV1 = Memory.lookup i bytesV1) ∧
      s16.inbuf.wf s16.maxLen.toNat = true ∧
      ∃ t, step (turning (.host (.bufWrite 15#32 9#8)) s16) = .next t :=
  ⟨by decide, fun _ => rfl, by decide, _, rfl⟩

/-- Premises of the three outcomes by width, of the outcome under every schedule and of the step count, at LEN = 3, at the
capacity and at 0. -/
theorem witness_outcome_premises :
    ({ s16 with len := 3#32, inbuf := bytesV1 } : State).status.busy = false ∧ (3#32).toNat ≤ s16.maxLen.toNat ∧
      (16#32).toNat ≤ s16.maxLen.toNat ∧ (0#32).toNat ≤ s16.maxLen.toNat ∧ s16.maxLen.toNat ≤ 2 ^ 32 - 4 := by decide

/-- A schedule for V1 at width 16 (N = 2, four ENGINE turns) with a write and a read of the HOST in between. -/
theorem witness_OutcomeUnderEverySchedule :
    Turn.host .reset ∉ [Turn.engine, .host (.bufWrite 0#32 0xFF#8), .engine, .host (.regRead 0x0C#32), .engine, .engine] ∧
      List.count Turn.engine
        [Turn.engine, .host (.bufWrite 0#32 0xFF#8), .engine, .host (.regRead 0x0C#32), .engine, .engine] =
        wordCount (3#32).toNat .w16 + 2 ∧
      [Turn.engine, .host (.bufWrite 0#32 0xFF#8), .engine, .host (.regRead 0x0C#32), .engine, .engine].getLast? =
        some .engine := by decide

theorem witness_ComputationStepCount : ∃ t, exec Width.w16.command { s16 with len := 3#32, inbuf := bytesV1 } = .next t :=
  ⟨_, rfl⟩

theorem witness_ResultStaysVisible :
    doneV1.Inv ∧ doneV1.status.done = true ∧
      ∀ t ∈ [Turn.engine, .host (.bufWrite 0#32 0xFF#8), .host (.regWrite 0x00#32 0x00000003#32),
          .host (.regWrite 0x00#32 0#32)],
        t ≠ .host .reset ∧ t ≠ .host (.regWrite 0x00#32 0x00000002#32) ∧
          ∀ w : Width, t ≠ .host (.regWrite 0x00#32 (encode w.command)) := by
  refine ⟨doneV1_inv, rfl, fun t ht => ⟨?_, ?_, fun w => ?_⟩⟩
  · revert t; decide
  · revert t; decide
  · cases w <;> revert t <;> decide

theorem witness_LoadFillsBuffer :
    s16.status.busy = false ∧ (List.replicate 16 (0xFF#8 : Byte)).length ≤ s16.maxLen.toNat := by decide

theorem witness_VirtualPaddingIsPaddedSequence :
    (2 : Nat) < aggV1.lenL.toNat + padCount aggV1.lenL.toNat aggV1.widthL ∧
      (3 : Nat) < aggV1.lenL.toNat + padCount aggV1.lenL.toNat aggV1.widthL ∧ ¬(3 : Nat) < aggV1.lenL.toNat := by decide

end Sys2Proof.Tests
end

section
/-! SUPPORT. Who writes which register (spec/10_state.md): the command words as their causes, the next state of each
event of a step, and from these the statements on LEN, RESULT, COUNT, ACC, MAXLEN, STATUS, STAGE, WIDTH_L and LEN_L. A
clause on what an event writes uses that event's equation; a clause on what is kept uses the inversion `step_case`. -/

namespace Sys2Proof.Machine

/-! ## Command words: what each decodes to, in both directions -/

/-- A command word is its three fields (R71). -/
theorem word_fields (v : Word) : CommandFields.word ⟨opField v, widthField v, rsvdField v⟩ = v := by
  have high : rsvdField v ++ widthField v = v.extractLsb' 8 24 :=
    BitVec.extractLsb'_append_extractLsb'_eq_extractLsb' rfl
  have whole : v.extractLsb' 8 24 ++ opField v = v.extractLsb' 0 32 :=
    BitVec.extractLsb'_append_extractLsb'_eq_extractLsb' rfl
  rw [CommandFields.word, high]
  exact whole.trans BitVec.extractLsb'_eq_self

theorem decode_encode (i : Instr) : decode (encode i) = .command i := by
  cases i <;> decide

/-- The fields of a word that decodes to a command are the command's (R74, R75). -/
theorem fields_of_decode {v : Word} {i : Instr} (h : decode v = .command i) :
    (⟨opField v, widthField v, rsvdField v⟩ : CommandFields) = i.fields := by
  unfold decode decodeCompute at h
  split_ifs at h <;> cases h <;> simp_all [Instr.fields]

theorem decode_eq_command_iff {v : Word} {i : Instr} : decode v = .command i ↔ v = encode i := by
  constructor
  · intro h
    rw [← word_fields v, fields_of_decode h, encode]
  · rintro rfl
    exact decode_encode i

/-- An OP is reserved when it is none of the three of R72. -/
theorem reservedOp_iff (op : BitVec 8) : 3 ≤ op.toNat ↔ op ≠ 0#8 ∧ op ≠ 1#8 ∧ op ≠ 2#8 := by
  bv_omega

theorem decode_eq_illegal_iff {v : Word} : decode v = .illegal ↔ IllegalWord v := by
  unfold decode decodeCompute IllegalWord
  rw [reservedOp_iff]
  split_ifs <;> simp_all

theorem decode_eq_domain_iff {v : Word} : decode v = .domain ↔ DomainWord v := by
  unfold decode decodeCompute DomainWord
  split_ifs <;> simp_all

/-! ## The events of a step, from its inversion -/

theorem State.issues.clears {s : State} {v : Word} (hi : s.issues v) (hd : decode v = .command .clear) : s.clears := by
  cases decode_eq_command_iff.1 hd
  exact hi

theorem State.issues.accepts {s : State} {v : Word} {w : Width} (hi : s.issues v) (hd : decode v = .command w.command)
    (hl : s.len.toNat ≤ s.maxLen.toNat) : s.accepts w := by
  cases decode_eq_command_iff.1 hd
  exact ⟨hi, hl⟩

theorem State.issues.errs_illegalCmd {s : State} {v : Word} (hi : s.issues v) (hd : decode v = .illegal) :
    s.errs .illegalCmd :=
  ⟨v, hi, decode_eq_illegal_iff.1 hd⟩

theorem State.issues.errs_domain {s : State} {v : Word} (hi : s.issues v) (hd : decode v = .domain) : s.errs .domain :=
  ⟨v, hi, decode_eq_domain_iff.1 hd⟩

theorem State.issues.errs_length {s : State} {v : Word} {w : Width} (hi : s.issues v)
    (hd : decode v = .command w.command) (hl : s.maxLen.toNat < s.len.toNat) : s.errs .length := by
  cases decode_eq_command_iff.1 hd
  exact ⟨w, hi, hl⟩

/-! ## The next state of each event -/

theorem step_of_engine {s : State} (h : s.turn = .engine) :
    step s = .next (engineStep { s with agenda := s.agenda.tail }) := by
  rw [step_eq, h]; rfl

theorem step_of_engineAt_idle {s : State} (h : s.engineAt .idle) :
    step s = .next { s with agenda := s.agenda.tail } := by
  simp [step_of_engine h.1, engineStep, h.2]

theorem step_of_engineAt_pad {s : State} (h : s.engineAt .pad) :
    step s = .next (padStep { s with agenda := s.agenda.tail }) := by
  simp [step_of_engine h.1, engineStep, h.2]

theorem step_of_engineAt_agg {s : State} (h : s.engineAt .agg) :
    step s = .next (aggStep { s with agenda := s.agenda.tail }) := by
  simp [step_of_engine h.1, engineStep, h.2]

theorem step_of_engineAt_fin {s : State} (h : s.engineAt .fin) :
    step s = .next (finStep { s with agenda := s.agenda.tail }) := by
  simp [step_of_engine h.1, engineStep, h.2]

theorem step_of_resetting {s : State} (h : s.resetting) :
    step s = .next (resetBlock { s with agenda := s.agenda.tail }) := by
  rw [step_eq, h]; rfl

theorem step_of_regWrite_zero {s : State} {v : Word} (h : s.turn = .host (.regWrite 0x00#32 v)) :
    step s = issue v { s with agenda := s.agenda.tail } := by
  rw [step_eq, h]; rfl

theorem step_of_regWrite_len {s : State} {v : Word} (h : s.turn = .host (.regWrite 0x04#32 v)) :
    step s = .next (whenIdle (setLen v) { s with agenda := s.agenda.tail }) := by
  rw [step_eq, h]; rfl

theorem step_of_regWrite_len_idle {s : State} {v : Word} (h : s.turn = .host (.regWrite 0x04#32 v))
    (hb : s.status.busy = false) : step s = .next (setLen v { s with agenda := s.agenda.tail }) :=
  (step_of_regWrite_len h).trans (congrArg Host.Outcome.next (whenIdle_idle _ hb))

theorem step_of_bufWrite {s : State} {i : Word} {b : Byte} (h : s.turn = .host (.bufWrite i b)) :
    step s = .next (whenIdle (memWrite i.toNat b) { s with agenda := s.agenda.tail }) := by
  rw [step_eq, h]; rfl

theorem step_of_discards {s : State} (h : s.discards) :
    step s = .next (discard { s with agenda := s.agenda.tail }) := by
  obtain ⟨hb, ⟨v, ht⟩ | ⟨v, ht⟩ | ⟨i, b, ht⟩⟩ := h
  · exact (step_of_regWrite_zero ht).trans (issue_busy v hb)
  · exact (step_of_regWrite_len ht).trans (congrArg Host.Outcome.next (whenIdle_busy _ hb))
  · exact (step_of_bufWrite ht).trans (congrArg Host.Outcome.next (whenIdle_busy _ hb))

theorem step_of_issues_command {s : State} (i : Instr) (h : s.issues (encode i)) :
    step s = .next (commandEffect i { s with agenda := s.agenda.tail }) := by
  rw [step_of_regWrite_zero h.1]
  simp [issue, h.2, decode_encode, exec_idle]

theorem step_of_clears {s : State} (h : s.clears) : step s = .next (clearResults { s with agenda := s.agenda.tail }) :=
  step_of_issues_command .clear h

theorem next_of_clears_or_resetting {s t : State} (h : step s = .next t) (he : s.clears ∨ s.resetting) :
    t = clearResults { s with agenda := s.agenda.tail } ∨ t = resetBlock { s with agenda := s.agenda.tail } := by
  obtain hc | hr := he
  · cases h.symm.trans (step_of_clears hc); exact .inl rfl
  · cases h.symm.trans (step_of_resetting hr); exact .inr rfl

theorem step_of_accepts {s : State} {w : Width} (h : s.accepts w) :
    step s = .next (acceptCompute w { s with agenda := s.agenda.tail }) := by
  rw [step_of_issues_command _ h.1, commandEffect_compute, issueCompute, if_neg (Nat.not_lt.2 h.2)]

theorem step_of_errs {s : State} {e : CmdError} (h : s.errs e) :
    step s = .next (raiseError e { s with agenda := s.agenda.tail }) := by
  cases e with
  | illegalCmd =>
    obtain ⟨v, ⟨ht, hb⟩, hv⟩ := h
    simp [step_of_regWrite_zero ht, issue, hb, decode_eq_illegal_iff.2 hv]
  | domain =>
    obtain ⟨v, ⟨ht, hb⟩, hv⟩ := h
    simp [step_of_regWrite_zero ht, issue, hb, decode_eq_domain_iff.2 hv]
  | length =>
    obtain ⟨w, hi, hl⟩ := h
    rw [step_of_issues_command _ hi, commandEffect_compute, issueCompute, if_pos hl]

/-! ## The values the ENGINE writes -/

theorem and_mask_lt (w : Width) (x : Word) : (x &&& w.mask).toNat < 2 ^ w.bits := by
  have hm : w.mask.toNat < 2 ^ w.bits := by cases w <;> decide
  rw [BitVec.toNat_and]
  exact Nat.and_lt_two_pow _ hm

theorem padStep_stage_cases (s : State) : (padStep s).stage = .agg ∨ (padStep s).stage = .fin := by
  rw [padStep_stage]
  split
  · exact .inr rfl
  · exact .inl rfl

theorem aggStep_stage_cases (s : State) : (aggStep s).stage = .agg ∨ (aggStep s).stage = .fin := by
  rw [aggStep_stage]
  split
  · exact .inr rfl
  · exact .inl rfl

/-- The ENGINE does not read LEN: writing it before or after its step is the same (R38). -/
theorem engineStep_setLen (v : Word) (s : State) : engineStep (setLen v s) = setLen v (engineStep s) := by
  cases hg : s.stage <;> simp only [engineStep, setLen_stage, hg] <;> rfl

/-! ## The statements -/

/-- Settles O29: the idle write, the Reset and the LENGTH error by their next states, the rest by the inversion of a
step. -/
theorem lenWrites : Obligations.LenWrites := by
  refine ⟨rfl, fun s t h => ⟨fun v ht hb => ?_, fun hr => ?_, fun hr hw => ?_, fun w hi hl => ?_⟩⟩
  · cases h.symm.trans (step_of_regWrite_len_idle ht hb); rfl
  · cases h.symm.trans (step_of_resetting hr); rfl
  · cases step_case h with
    | reset ht => exact absurd ht hr
    | setLen v ht hb => simp [hw v ht] at hb
    | _ => rfl
  · cases h.symm.trans (step_of_errs (e := .length) ⟨w, hi, hl⟩); rfl

/-- RESULT and COUNT have the same writers (R26, R27), and no other step changes either. -/
theorem step_keeps_result_count {s t : State} (h : step s = .next t) (hf : ¬s.engineAt .fin) (hc : ¬s.clears)
    (hr : ¬s.resetting) : t.result = s.result ∧ t.count = s.count := by
  cases step_case h with
  | fin ht hg => exact absurd ⟨ht, hg⟩ hf
  | clear v hi hd => exact absurd (hi.clears hd) hc
  | reset ht => exact absurd ht hr
  | _ => exact ⟨rfl, rfl⟩

/-- Settles O30: FIN writes a masked value, which fits the width; CLEAR and Reset write 0; no other step writes it. -/
theorem resultWrites : Obligations.ResultWrites := by
  refine fun s t h => ⟨fun hf => ?_, fun he => ?_, fun hf hc hr => (step_keeps_result_count h hf hc hr).1⟩
  · cases h.symm.trans (step_of_engineAt_fin hf)
    exact ⟨rfl, and_mask_lt s.widthL s.acc⟩
  · obtain rfl | rfl := next_of_clears_or_resetting h he <;> rfl

/-- Settles O31: its writers are those of RESULT. -/
theorem countWrites : Obligations.CountWrites := by
  refine fun s t h => ⟨fun hf => ?_, fun he => ?_, fun hf hc hr => (step_keeps_result_count h hf hc hr).2⟩
  · cases h.symm.trans (step_of_engineAt_fin hf); rfl
  · obtain rfl | rfl := next_of_clears_or_resetting h he <;> rfl

/-- Settles O32: each writer by its next state, the rest by the inversion of a step; the read at 0x0C is ACC by
definition. -/
theorem accWrites : Obligations.AccWrites := by
  refine ⟨fun s t h => ⟨fun w ha => ?_, fun he => ?_, fun hg => ?_, fun hf => ?_, fun ha hc hr hg hf => ?_⟩, rfl,
    fun s => rfl⟩
  · cases h.symm.trans (step_of_accepts ha); rfl
  · obtain rfl | rfl := next_of_clears_or_resetting h he <;> rfl
  · cases h.symm.trans (step_of_engineAt_agg hg); rfl
  · cases h.symm.trans (step_of_engineAt_fin hf); rfl
  · cases step_case h with
    | agg ht hs => exact absurd ⟨ht, hs⟩ hg
    | fin ht hs => exact absurd ⟨ht, hs⟩ hf
    | accept v w hi hd hl => exact absurd (hi.accepts hd hl) (ha w)
    | clear v hi hd => exact absurd (hi.clears hd) hc
    | reset ht => exact absurd ht hr
    | _ => rfl

/-- Settles O33: every case of a step keeps it, Reset included. -/
theorem maxLenConstant : Obligations.MaxLenConstant := by
  refine ⟨?_, fun s t h => ?_, fun s => rfl⟩
  · have hlt : Config.maxLen.val < 2 ^ 32 := Config.maxLen.isLt.trans (by decide)
    exact Nat.mod_eq_of_lt hlt
  · cases step_case h <;> rfl

/-- Settles O35: each writer by its next state, the rest by the inversion of a step; the enabled step is invariant
R42 (a). -/
theorem busyWrites : Obligations.BusyWrites := by
  refine ⟨fun s t h => ⟨fun w ha => ?_, fun he => ?_, fun ha hf hr => ?_⟩, fun s hs => hs.busy_iff.1⟩
  · cases h.symm.trans (step_of_accepts ha); rfl
  · obtain hf | hr := he
    · cases h.symm.trans (step_of_engineAt_fin hf); rfl
    · cases h.symm.trans (step_of_resetting hr); rfl
  · cases step_case h with
    | fin ht hg => exact absurd ⟨ht, hg⟩ hf
    | accept v w hi hd hl => exact absurd (hi.accepts hd hl) (ha w)
    | reset ht => exact absurd ht hr
    | _ => rfl

/-- Settles O36: each writer by its next state, the rest by the inversion of a step. -/
theorem doneWrites : Obligations.DoneWrites := by
  refine fun s t h => ⟨fun hf => ?_, fun he => ?_, fun hf ha he hc hr => ?_⟩
  · cases h.symm.trans (step_of_engineAt_fin hf); rfl
  · obtain ⟨w, ha⟩ | ⟨e, he⟩ | hz := he
    · cases h.symm.trans (step_of_accepts ha); rfl
    · cases h.symm.trans (step_of_errs he); rfl
    · obtain rfl | rfl := next_of_clears_or_resetting h hz <;> rfl
  · cases step_case h with
    | fin ht hg => exact absurd ⟨ht, hg⟩ hf
    | accept v w hi hd hl => exact absurd (hi.accepts hd hl) (ha w)
    | illegal v hi hd => exact absurd (hi.errs_illegalCmd hd) (he _)
    | domain v hi hd => exact absurd (hi.errs_domain hd) (he _)
    | length v w hi hd hl => exact absurd (hi.errs_length hd hl) (he _)
    | clear v hi hd => exact absurd (hi.clears hd) hc
    | reset ht => exact absurd ht hr
    | _ => rfl

/-- Settles O37: every error goes through `raiseError`, and the steps that are no event keep both fields. -/
theorem errorFieldWrites : Obligations.ErrorFieldWrites := by
  refine fun s t h => ⟨fun he => ?_, fun he => ?_, fun he => ?_, fun hz => ?_, fun he ha hc hr => ?_⟩
  · cases h.symm.trans (step_of_errs he); exact ⟨rfl, rfl⟩
  · cases h.symm.trans (step_of_errs he); exact ⟨rfl, rfl⟩
  · cases h.symm.trans (step_of_errs he); exact ⟨rfl, rfl⟩
  · obtain ⟨w, ha⟩ | hz := hz
    · cases h.symm.trans (step_of_accepts ha); exact ⟨rfl, rfl⟩
    · obtain rfl | rfl := next_of_clears_or_resetting h hz <;> exact ⟨rfl, rfl⟩
  · cases step_case h with
    | accept v w hi hd hl => exact absurd (hi.accepts hd hl) (ha w)
    | illegal v hi hd => exact absurd (hi.errs_illegalCmd hd) (he _)
    | domain v hi hd => exact absurd (hi.errs_domain hd) (he _)
    | length v w hi hd hl => exact absurd (hi.errs_length hd hl) (he _)
    | clear v hi hd => exact absurd (hi.clears hd) hc
    | reset ht => exact absurd ht hr
    | _ => exact ⟨rfl, rfl⟩

/-- Settles O38: the three discarded writes have one next state, `discard`; the rest by the inversion of a step. -/
theorem busyErrWrites : Obligations.BusyErrWrites := by
  refine fun s t h => ⟨fun hd => ?_, fun he => ?_, fun hb hc hr => ?_⟩
  · cases h.symm.trans (step_of_discards hd); rfl
  · obtain rfl | rfl := next_of_clears_or_resetting h he <;> rfl
  · cases step_case h with
    | discard hd => exact absurd hd hb
    | clear v hi hd => exact absurd (hi.clears hd) hc
    | reset ht => exact absurd ht hr
    | _ => rfl

/-- Settles O39: each move by its next state; a host turn that neither accepts nor resets keeps STAGE. -/
theorem stageMoves : Obligations.StageMoves := by
  refine ⟨rfl, fun s t h => ⟨fun w ha => ?_, fun hi => ?_, fun hp => ?_, fun hg => ?_, fun he => ?_,
    fun hn ha hr => ?_⟩⟩
  · cases h.symm.trans (step_of_accepts ha); rfl
  · cases h.symm.trans (step_of_engineAt_idle hi); exact hi.2
  · cases h.symm.trans (step_of_engineAt_pad hp); exact padStep_stage_cases _
  · cases h.symm.trans (step_of_engineAt_agg hg); exact aggStep_stage_cases _
  · obtain hf | hr := he
    · cases h.symm.trans (step_of_engineAt_fin hf); rfl
    · cases h.symm.trans (step_of_resetting hr); rfl
  · cases step_case h with
    | pad ht | agg ht | fin ht => exact absurd ht hn
    | accept v w hi hd hl => exact absurd (hi.accepts hd hl) (ha w)
    | reset ht => exact absurd ht hr
    | _ => rfl

/-- Settles O40: only acceptance and Reset write the two, and the ENGINE's step commutes with a write of LEN. -/
theorem latchedOperands : Obligations.LatchedOperands := by
  refine ⟨rfl, rfl, fun s t h => ⟨fun w ha => ?_, fun hr => ?_, fun ha hr => ?_⟩, fun s t v h => ?_⟩
  · cases h.symm.trans (step_of_accepts ha); exact ⟨rfl, rfl⟩
  · cases h.symm.trans (step_of_resetting hr); exact ⟨rfl, rfl⟩
  · cases step_case h with
    | accept v w hi hd hl => exact absurd (hi.accepts hd hl) (ha w)
    | reset ht => exact absurd ht hr
    | _ => exact ⟨rfl, rfl⟩
  · cases h
    exact congrArg Host.Outcome.next (engineStep_setLen v s)

end Sys2Proof.Machine
end

section
/-! SUPPORT. Side effects of the host operations (spec/20_memory.md, R59): reads see nothing of the HOST's own list, a write
that keeps STATUS and absorbs itself is idempotent through the busy test, a second COMPUTE is another command. -/

namespace Sys2Proof.Machine

/-! ## Reads -/

theorem regRead_replies (off : Word) (rs : List Reply) (s : State) :
    regRead off { s with replies := rs } = regRead off s := by
  unfold regRead
  cases RegName.ofOffset off with
  | none => rfl
  | some r => cases r <;> rfl

theorem memRead_replies (i : Nat) (rs : List Reply) (s : State) : memRead i { s with replies := rs } = memRead i s :=
  memRead_congr rfl rfl rfl i

/-! ## Writes made twice -/

/-- A second insert at the index finds what the first one left there; sortedness is not needed. -/
theorem Memory.insert_insert (i : Nat) (b : Byte) (m : Memory) : (m.insert i b).insert i b = m.insert i b := by
  induction m with
  | nil => simp [Memory.insert]
  | cons c m ih =>
    by_cases hlt : c.1 < i
    · simp [Memory.insert, hlt, ih]
    · by_cases heq : c.1 = i <;> simp [Memory.insert, hlt, heq]

theorem memWrite_memWrite (i : Nat) (b : Byte) (s : State) : memWrite i b (memWrite i b s) = memWrite i b s := by
  by_cases hi : i < s.maxLen.toNat
  · simp [memWrite, hi, Memory.insert_insert]
  · simp only [memWrite_out_of_range b (Nat.not_lt.1 hi)]

/-- The busy test keeps a self-absorbing write idempotent: discarding twice is discarding once, and a write that keeps
STATUS meets the same test again (R92, R164). -/
theorem whenIdle_whenIdle {act : State → State} (hst : ∀ s, (act s).status = s.status)
    (hact : ∀ s, act (act s) = act s) (s : State) : whenIdle act (whenIdle act s) = whenIdle act s := by
  cases hb : s.status.busy with
  | true =>
    rw [whenIdle_busy act hb, whenIdle_busy act (s := discard s) hb]
    rfl
  | false =>
    have hb' : (act s).status.busy = false := by rw [hst, hb]
    rw [whenIdle_idle act hb, whenIdle_idle act hb', hact]

theorem takeTurn_regWrite_len (v : Word) (s : State) :
    takeTurn (.host (.regWrite 0x04#32 v)) s = .next (whenIdle (setLen v) s) := rfl

theorem takeTurn_bufWrite (i : Word) (b : Byte) (s : State) :
    takeTurn (.host (.bufWrite i b)) s = .next (whenIdle (memWrite i.toNat b) s) := rfl

/-- A turn that is always the same idempotent update has no further effect when it is taken again. -/
theorem takeTurn_again {tn : Turn} {f : State → State} (htn : ∀ s, takeTurn tn s = .next (f s))
    (hf : ∀ s, f (f s) = f s) {s t : State} (h : takeTurn tn s = .next t) : takeTurn tn t = .next t := by
  cases (htn s).symm.trans h
  rw [htn, hf]

/-! ## A command made twice, and a write without effect -/

theorem exec_compute_accepts (w : Width) {s : State} (hb : s.status.busy = false) (hl : s.len.toNat ≤ s.maxLen.toNat) :
    exec w.command s = .next (acceptCompute w s) := by
  rw [exec_idle _ hb, commandEffect_compute, issueCompute, if_neg (Nat.not_lt.2 hl)]

/-- The second of two COMPUTEs is discarded and leaves its mark in BUSYERR (R59, R164). -/
theorem exec_compute_twice (w : Width) {s : State} (hb : s.status.busy = false) (he : s.status.busyErr = false)
    (hl : s.len.toNat ≤ s.maxLen.toNat) :
    ∃ t u, exec w.command s = .next t ∧ exec w.command t = .next u ∧ u ≠ t := by
  refine ⟨acceptCompute w s, discard (acceptCompute w s), exec_compute_accepts w hb hl, exec_busy _ rfl, fun h => ?_⟩
  have hmark : true = s.status.busyErr := congrArg (fun t : State => t.status.busyErr) h
  rw [he] at hmark
  cases hmark

theorem regWrite_no_effect {off : Word} (v : Word) (s : State) (h0 : off ≠ 0x00#32) (h4 : off ≠ 0x04#32) :
    regWrite off v s = .next s := by
  obtain ⟨h, -⟩ | ⟨h, -⟩ | ⟨-, -, h⟩ := regWrite_eq off v s
  · exact absurd h h0
  · exact absurd h h4
  · exact h

/-! ## The statement -/

/-- Settles O18: a read only adds its reply, which no read looks at; the two writes are idempotent through the busy test;
two COMPUTEs from the state after reset, whose LEN of 0 fits every capacity, are two commands. -/
theorem sideEffects : Obligations.SideEffects := by
  refine ⟨fun s off => ⟨_, rfl⟩, fun s i => ⟨_, rfl⟩, fun s off i rs => ⟨regRead_replies off rs s, memRead_replies _ rs s⟩,
    fun s t v => ?setLen, fun s t i b => ?bufWrite, ⟨State.reset, ?compute⟩, fun s off v => regWrite_no_effect v s⟩
  case setLen => exact takeTurn_again (takeTurn_regWrite_len v) (whenIdle_whenIdle (fun _ => rfl) (fun _ => rfl))
  case bufWrite =>
    exact takeTurn_again (takeTurn_bufWrite i b) (whenIdle_whenIdle (fun _ => rfl) (memWrite_memWrite i.toNat b))
  case compute => exact exec_compute_twice .w8 rfl rfl (Nat.zero_le _)

end Sys2Proof.Machine
end

section
/-! SUPPORT. The precedence of decoding (spec/30_encoding.md, R74): a legal word by its three fields, the two rejections
by the causes of R161, and what a rejected word does when it is issued while the ENGINE is idle (R162). -/

namespace Sys2Proof.Machine

/-- A word that carries a command's fields decodes to the command (the converse of `fields_of_decode`). -/
theorem decode_of_fields {v : Word} {i : Instr} (hr : rsvdField v = i.fields.rsvd) (ho : opField v = i.fields.op)
    (hw : widthField v = i.fields.width) : decode v = .command i := by
  rw [decode_eq_command_iff, ← word_fields v, hr, ho, hw, encode]

theorem issue_of_decode_illegal {v : Word} {s : State} (hb : s.status.busy = false) (hd : decode v = .illegal) :
    issue v s = .next (raiseError .illegalCmd s) := by
  simp [issue, hb, hd]

theorem issue_of_decode_domain {v : Word} {s : State} (hb : s.status.busy = false) (hd : decode v = .domain) :
    issue v s = .next (raiseError .domain s) := by
  simp [issue, hb, hd]

/-- Settles O2: the legal clauses by the command's fields, each rejection by its cause in R161; a rejected word raises its
error and nothing else. -/
theorem decodePrecedence : Obligations.DecodePrecedence := by
  have illegal {v : Word} : IllegalWord v → decode v = .illegal := decode_eq_illegal_iff.2
  refine fun v => ⟨fun hr => illegal (.inl hr), fun hr => ⟨?nop, ?nopWidth, ?clear, ?clearWidth, ?compute8, ?compute16,
    ?compute32, ?computeWidth, ?reservedOp⟩, fun s hb => ⟨issue_of_decode_illegal hb, issue_of_decode_domain hb⟩⟩
  case nop => exact decode_of_fields (i := .nop) hr
  case clear => exact decode_of_fields (i := .clear) hr
  case compute8 => exact decode_of_fields (i := .compute8) hr
  case compute16 => exact decode_of_fields (i := .compute16) hr
  case compute32 => exact decode_of_fields (i := .compute32) hr
  case nopWidth => exact fun ho hw => illegal (.inr (.inr ⟨.inl ho, hw⟩))
  case clearWidth => exact fun ho hw => illegal (.inr (.inr ⟨.inr ho, hw⟩))
  case computeWidth => exact fun ho h8 h16 h32 => decode_eq_domain_iff.2 ⟨ho, hr, h8, h16, h32⟩
  case reservedOp => exact fun h0 h1 h2 => illegal (.inr (.inl ((reservedOp_iff _).2 ⟨h0, h1, h2⟩)))

end Sys2Proof.Machine
end

section
/-! SUPPORT. The commands and the host operations at their exact next states (spec/40_commands.md): the issue of a word by
what it decodes to, a COMPUTE by its LEN check, a register offset by its number. -/

namespace Sys2Proof.Machine

/-! ## Command issue -/

theorem issue_of_decode_command {v : Word} {s : State} {i : Instr} (hb : s.status.busy = false)
    (hd : decode v = .command i) : issue v s = exec i s := by
  simp [issue, hb, hd]

theorem exec_compute_length (w : Width) {s : State} (hb : s.status.busy = false) (hl : s.maxLen.toNat < s.len.toNat) :
    exec w.command s = .next (raiseError .length s) := by
  rw [exec_idle _ hb, commandEffect_compute, issueCompute, if_pos hl]

/-- A COMPUTE word is legal when its WIDTH field holds the number of a width (R73). -/
theorem decode_compute_of_width {v : Word} (w : Width) (hr : rsvdField v = 0#16) (ho : opField v = 0x01#8)
    (hw : (widthField v).toNat = w.bits) : decode v = .command w.command := by
  have hfield : widthField v = w.command.fields.width := by
    apply BitVec.eq_of_toNat_eq
    rw [hw]
    cases w <;> rfl
  cases w with
  | w8 | w16 | w32 => exact decode_of_fields hr ho hfield

/-- Settles O5: NOP is the identity behind the busy test; the other words with OP 0 are illegal by R161. -/
theorem nopEffect : Obligations.NopEffect := by
  refine ⟨by decide, fun s => ⟨exec_idle .nop, exec_busy .nop, fun v hb ho hf => ?_⟩⟩
  have hv : IllegalWord v := by
    obtain hw | hr := hf
    · exact .inr (.inr ⟨.inl ho, hw⟩)
    · exact .inl hr
  exact issue_of_decode_illegal hb (decode_eq_illegal_iff.2 hv)

/-- Settles O6: CLEAR is `clearResults` behind the busy test; BUSYERR falls by CLEAR or Reset only, since a discard sets
it and every other step keeps it. -/
theorem clearEffect : Obligations.ClearEffect := by
  refine ⟨by decide, fun s => ⟨exec_idle .clear, exec_busy .clear⟩, exec_idle .clear rfl, fun s t h hs ht => ?_⟩
  obtain ⟨hset, -, hkeep⟩ := busyErrWrites s t h
  by_contra hno
  obtain ⟨hc, hr⟩ := not_or.1 hno
  by_cases hd : s.discards
  · simp [hset hd] at ht
  · simp [hkeep hd hc hr, hs] at ht

theorem ne_idle_of_agg_or_fin {g : Stage} (h : g = .agg ∨ g = .fin) : g ≠ .idle := by
  rintro rfl
  simp at h

/-- A computation stops at its FIN step or by a Reset only (R95). -/
theorem step_keeps_running {s t : State} (h : step s = .next t) (hg : s.stage ≠ .idle) (hf : ¬s.engineAt .fin)
    (hr : ¬s.resetting) : t.stage ≠ .idle := by
  cases step_case h with
  | engineIdle ht hi => exact absurd hi hg
  | pad => exact ne_idle_of_agg_or_fin (padStep_stage_cases _)
  | agg => exact ne_idle_of_agg_or_fin (aggStep_stage_cases _)
  | fin ht hs => exact absurd ⟨ht, hs⟩ hf
  | reset ht => exact absurd ht hr
  | accept => simp
  | _ => exact hg

/-- Settles O7: the three commands have one acceptance, by width. -/
theorem computeAccepted : Obligations.ComputeAccepted :=
  ⟨fun _ _ => step_keeps_running, fun _ hb hl =>
    ⟨exec_compute_accepts .w8 hb hl, exec_compute_accepts .w16 hb hl, exec_compute_accepts .w32 hb hl⟩⟩

/-- Settles O8: the first two checks are the causes of R161; a word that passes them is the COMPUTE of its width, which
checks LEN. -/
theorem computeIssueChecks : Obligations.ComputeIssueChecks := by
  refine fun s v hb ho => ⟨fun hr => ?rsvd, fun hr hw => ?width, fun w hr hw => ?legal⟩
  case rsvd => exact issue_of_decode_illegal hb (decode_eq_illegal_iff.2 (.inl hr))
  case width =>
    have hne (w : Width) {c : Byte} (hc : c.toNat = w.bits) : widthField v ≠ c := fun h => hw w ((congrArg BitVec.toNat h).trans hc)
    have hv : DomainWord v := ⟨ho, hr, hne .w8 rfl, hne .w16 rfl, hne .w32 rfl⟩
    exact issue_of_decode_domain hb (decode_eq_domain_iff.2 hv)
  case legal =>
    rw [issue_of_decode_command hb (decode_compute_of_width w hr ho hw)]
    exact ⟨exec_compute_length w hb, exec_compute_accepts w hb⟩

/-- Settles O11: the step is the issue of the word with the turn off the agenda, and the issue goes by BUSY and the decoded
word. -/
theorem stepRunsIssuedCommand : Obligations.StepRunsIssuedCommand := by
  intro s v rest ha
  have hs : step s = issue v { s with agenda := rest } := step_cons ha
  rw [hs]
  exact ⟨fun hb => issue_busy v hb, fun hb =>
    ⟨fun i => issue_of_decode_command hb, issue_of_decode_illegal hb, issue_of_decode_domain hb⟩⟩

/-! ## Host operations -/

/-- The word of STATUS in R97's formula, read over the naturals. -/
theorem Status.word_eq_ofNat (st : Status) :
    st.word = BitVec.ofNat 32 (st.errCode.toNat <<< 4 ||| st.busyErr.toNat <<< 3 ||| st.err.toNat <<< 2
      ||| st.done.toNat <<< 1 ||| st.busy.toNat) := by
  apply BitVec.eq_of_toNat_eq
  simp [Status.word, Nat.shiftLeft_eq]

theorem regRead_offset (r : RegName) (s : State) : regRead r.offset s = regValue s r := by
  rw [regRead, ofOffset_offset]

/-- The offsets of the registers are the seven multiples of 4 up to 0x18 (R23, R53, R54). -/
theorem exists_offset {off : Word} (h4 : off.toNat % 4 = 0) (hle : off.toNat ≤ 0x18) : ∃ r : RegName, off = r.offset := by
  have hcases : off.toNat = 0x00 ∨ off.toNat = 0x04 ∨ off.toNat = 0x08 ∨ off.toNat = 0x0C ∨ off.toNat = 0x10 ∨
      off.toNat = 0x14 ∨ off.toNat = 0x18 := by omega
  obtain h | h | h | h | h | h | h := hcases
  exacts [⟨.cmd, BitVec.eq_of_toNat_eq h⟩, ⟨.len, BitVec.eq_of_toNat_eq h⟩, ⟨.status, BitVec.eq_of_toNat_eq h⟩,
    ⟨.acc, BitVec.eq_of_toNat_eq h⟩, ⟨.result, BitVec.eq_of_toNat_eq h⟩, ⟨.count, BitVec.eq_of_toNat_eq h⟩,
    ⟨.maxLen, BitVec.eq_of_toNat_eq h⟩]

theorem offset_legal (r : RegName) : r.offset.toNat % 4 = 0 ∧ r.offset.toNat ≤ 0x18 := by
  cases r <;> decide

theorem regRead_no_register {off : Word} (h : off.toNat % 4 ≠ 0 ∨ 0x18 < off.toNat) (s : State) :
    regRead off s = 0#32 := by
  unfold regRead
  cases hr : RegName.ofOffset off with
  | none => rfl
  | some r =>
    obtain ⟨h4, hle⟩ := offset_legal r
    cases ofOffset_some hr
    omega

/-- Settles O13: an offset is misaligned, too high, or the offset of one of the seven registers. -/
theorem regReadValues : Obligations.RegReadValues := by
  intro s off
  refine congrArg (fun v => Host.Outcome.next (reply (.reg off v) s)) (?_ : regRead off s = _)
  by_cases h : off.toNat % 4 ≠ 0 ∨ 0x18 < off.toNat
  · rw [if_pos h, regRead_no_register h]
  · rw [if_neg h]
    obtain ⟨h4, hle⟩ := not_or.1 h
    obtain ⟨r, rfl⟩ := exists_offset (not_not.1 h4) (Nat.not_lt.1 hle)
    rw [regRead_offset]
    cases r with
    | status => exact s.status.word_eq_ofNat
    | _ => rfl

/-- Settles O15: CMD and LEN are the two offsets with an effect, and LEN stands behind the busy test. -/
theorem regWriteEffects : Obligations.RegWriteEffects := by
  intro s off v
  have noEffect (h0 : off.toNat ≠ 0x00) (h4 : off.toNat ≠ 0x04) : takeTurn (.host (.regWrite off v)) s = .next s :=
    regWrite_no_effect v s (fun h => h0 (congrArg BitVec.toNat h)) (fun h => h4 (congrArg BitVec.toNat h))
  have lenWrite (h : off.toNat = 0x04) : takeTurn (.host (.regWrite off v)) s = .next (whenIdle (setLen v) s) := by
    cases BitVec.eq_of_toNat_eq (y := 0x04#32) h
    exact takeTurn_regWrite_len v s
  refine ⟨fun h => noEffect (by omega) (by omega), fun h => ?_, fun h hb => ?_, fun h hb => ?_,
    fun h => noEffect (by omega) (by omega)⟩
  · cases BitVec.eq_of_toNat_eq (y := 0x00#32) h
    rfl
  · rw [lenWrite h, whenIdle_busy _ hb]
    rfl
  · rw [lenWrite h, whenIdle_idle _ hb]
    rfl

/-- Settles O16: the write stands behind the busy test, and INBUF is read after it by the two laws of `memWrite`. -/
theorem bufWriteEffect : Obligations.BufWriteEffect := by
  refine fun s i b => ⟨fun hb => ?busy, fun hb hi => ⟨(memWrite i.toNat b s).inbuf, ?inRange, memRead_memWrite_same b hi,
    fun j => memRead_memWrite_other b⟩, fun hb hi => ?outOfRange⟩
  all_goals rw [takeTurn_bufWrite]
  case busy => rw [whenIdle_busy _ hb]; rfl
  case inRange => rw [whenIdle_idle _ hb]; rfl
  case outOfRange => rw [whenIdle_idle _ hb, memWrite_out_of_range b hi]

end Sys2Proof.Machine
end

section
/-! SUPPORT. The ENGINE alone (spec/41_pipeline.md): the words of the padded sequence, the state of a computation after each
word as a closed form, its state after FIN, and from these the FIN step, the absence of engine errors and the outcome of
COMPUTE 8, 16 and 32. -/

namespace Sys2Proof.Machine

/-! ## The padded sequence (R121, R122) -/

theorem Width.nb_pos (w : Width) : 0 < w.nb := by
  cases w <;> decide

theorem Width.nb_le_four (w : Width) : w.nb ≤ 4 := by
  cases w <;> decide

theorem padCount_lt_nb (n : Nat) (w : Width) : padCount n w < w.nb := by
  cases w <;> simp only [padCount, Width.nb] <;> omega

theorem nb_dvd_padded_length (n : Nat) (w : Width) : w.nb ∣ n + padCount n w := by
  cases w <;> simp only [padCount, Width.nb] <;> omega

/-- The padded sequence is made of whole words. -/
theorem wordCount_mul_nb (n : Nat) (w : Width) : wordCount n w * w.nb = n + padCount n w :=
  Nat.div_mul_cancel (nb_dvd_padded_length n w)

theorem wordCount_zero (w : Width) : wordCount 0 w = 0 := by
  cases w <;> decide

theorem wordCount_pos {n : Nat} (w : Width) (h : 0 < n) : 0 < wordCount n w :=
  Nat.pos_of_mul_pos_right (by rw [wordCount_mul_nb]; omega : 0 < wordCount n w * w.nb)

theorem wordCount_mul_nb_lt {n : Nat} (w : Width) (h : n ≤ 2 ^ 32 - 4) : wordCount n w * w.nb < 2 ^ 32 := by
  have hpad := padCount_lt_nb n w
  have hnb := w.nb_le_four
  rw [wordCount_mul_nb]
  omega

@[simp] theorem length_inputBytes (s : State) (n : Nat) : (inputBytes s n).length = n := by
  simp [inputBytes]

theorem length_padded (B : List Byte) (w : Width) : (padded B w).length = B.length + padCount B.length w := by
  simp [padded]

/-- The bytes V(i) the ENGINE reads are those of the padded sequence. -/
theorem getElem?_padded_inputBytes {s : State} {i : Nat} (w : Width)
    (hi : i < s.lenL.toNat + padCount s.lenL.toNat w) :
    (padded (inputBytes s s.lenL.toNat) w)[i]? = some (padByteAt s i) := by
  unfold padded padByteAt
  by_cases h : i < s.lenL.toNat
  · simp [List.getElem?_append_left, inputBytes, h]
  · rw [List.getElem?_append_right (by simpa using h), if_neg h, length_inputBytes, List.getElem?_replicate,
      if_pos (by omega)]

/-! ## Words (R124) -/

theorem wordAt_one (S : Nat → Byte) (pos : Nat) : wordAt S pos 1 1 = (S pos).zeroExtend 32 := by
  simp [wordAt, wordTerms]

theorem wordAt_two (S : Nat → Byte) (pos : Nat) :
    wordAt S pos 2 2 = (S pos).zeroExtend 32 <<< 8 ||| (S (pos + 1)).zeroExtend 32 := by
  simp [wordAt, wordTerms]

theorem wordAt_four (S : Nat → Byte) (pos : Nat) :
    wordAt S pos 4 4 = (S pos).zeroExtend 32 <<< 24 ||| (S (pos + 1)).zeroExtend 32 <<< 16
      ||| (S (pos + 2)).zeroExtend 32 <<< 8 ||| (S (pos + 3)).zeroExtend 32 := by
  simp [wordAt, wordTerms]

/-- A word depends on its own bytes alone. -/
theorem wordTerms_congr {S T : Nat → Byte} (pos nb avail : Nat) {m : Nat} (h : ∀ j < m, S (pos + j) = T (pos + j)) :
    wordTerms S pos nb avail m = wordTerms T pos nb avail m := by
  induction m with
  | zero => rfl
  | succ m ih => rw [wordTerms, wordTerms, ih fun j hj => h j (by omega), h m (Nat.lt_succ_self m)]

/-- While words are left, the word the ENGINE adds at POS = k·nb is the k-th of the padded sequence (R129, R131). -/
theorem nextWord_eq_wordOf {s : State} {k : Nat} (hpos : s.pos.toNat = k * s.widthL.nb)
    (hplen : s.pLen.toNat = s.lenL.toNat + padCount s.lenL.toNat s.widthL)
    (hk : k < wordCount s.lenL.toNat s.widthL) :
    nextWord s = wordOf (inputBytes s s.lenL.toNat) s.widthL k := by
  have hword : k * s.widthL.nb + s.widthL.nb ≤ s.lenL.toNat + padCount s.lenL.toNat s.widthL := by
    rw [← wordCount_mul_nb, ← Nat.succ_mul]
    exact Nat.mul_le_mul_right _ hk
  have hfull : availBytes s = s.widthL.nb := by
    unfold availBytes
    omega
  rw [nextWord, wordOf, hfull, hpos]
  refine wordTerms_congr _ _ _ fun j hj => ?_
  rw [List.getD_eq_getElem?_getD, getElem?_padded_inputBytes _ (by omega), Option.getD_some]

/-! ## The ENGINE's turns -/

theorem engineStep_of_pad {s : State} (h : s.stage = .pad) : engineStep s = padStep s := by
  simp [engineStep, h]

theorem engineStep_of_agg {s : State} (h : s.stage = .agg) : engineStep s = aggStep s := by
  simp [engineStep, h]

theorem engineStep_of_fin {s : State} (h : s.stage = .fin) : engineStep s = finStep s := by
  simp [engineStep, h]

theorem engineStep_agenda (s : State) : (engineStep s).agenda = s.agenda := by
  obtain ⟨-, h⟩ | ⟨-, h⟩ | ⟨-, h⟩ | ⟨-, h⟩ := engineStep_cases s <;> rw [h] <;> rfl

theorem engineStep_keeps_error (s : State) :
    (engineStep s).status.err = s.status.err ∧ (engineStep s).status.errCode = s.status.errCode := by
  obtain ⟨-, h⟩ | ⟨-, h⟩ | ⟨-, h⟩ | ⟨-, h⟩ := engineStep_cases s <;> rw [h] <;> exact ⟨rfl, rfl⟩

theorem engineTurns_succ (k : Nat) (s : State) : engineTurns (k + 1) s = engineStep (engineTurns k s) := by
  induction k generalizing s with
  | zero => rfl
  | succ k ih => exact ih (engineStep s)

theorem run_succ_of_step (k : Nat) {s t : State} (h : step s = .next t) :
    Host.Core.run Sys2Proof.core (k + 1) s = Host.Core.run Sys2Proof.core k t := by
  have hstep : Sys2Proof.core.step s = .next t := h
  simp only [Host.Core.run, hstep]

/-- With an empty agenda the ENGINE alone moves (R132; log entry 2). -/
theorem run_of_agenda_nil (k : Nat) {s : State} (h : s.agenda = []) :
    Host.Core.run Sys2Proof.core k s = .next (engineTurns k s) := by
  induction k generalizing s with
  | zero => rfl
  | succ k ih =>
    rw [run_succ_of_step k (step_nil h)]
    exact ih ((engineStep_agenda s).trans h)

/-- Settles O26: at FIN the ENGINE's turn is `finStep`. -/
theorem finStepEffect : Obligations.FinStepEffect :=
  fun _ hg => congrArg Host.Outcome.next (engineStep_of_fin hg)

/-- Settles O27: the ENGINE keeps both error fields, and by the inversion of a step ERR rises at a command issue only. -/
theorem engineRaisesNoError : Obligations.EngineRaisesNoError := by
  refine ⟨fun s => ⟨_, rfl, engineStep_keeps_error s⟩, fun s t h hs ht => ?_⟩
  cases step_case h with
  | illegal v hi | domain v hi | length v w hi => exact ⟨v, hi⟩
  | accept | clear | reset => cases ht
  | _ => cases hs.symm.trans ht

/-! ## A computation, word by word (R130, R131, R134) -/

/-- The state k words after the PAD step of a COMPUTE of width w accepted in `s`. -/
def afterWords (w : Width) (s : State) (k : Nat) : State :=
  { padStep (acceptCompute w s) with
    acc := sumAfter (inputBytes s s.len.toNat) w k
    pos := BitVec.ofNat 32 (k * w.nb)
    stage := if k = wordCount s.len.toNat w then .fin else .agg }

/-- The state after the FIN step of that COMPUTE. -/
def finished (w : Width) (s : State) : State := finStep (afterWords w s (wordCount s.len.toNat w))

theorem afterWords_zero (w : Width) (s : State) : afterWords w s 0 = padStep (acceptCompute w s) := by
  have hpos : 0#32 = BitVec.ofNat 32 (0 * w.nb) := by rw [Nat.zero_mul]
  have hstage : (if s.len = 0#32 then Stage.fin else .agg) = if 0 = wordCount s.len.toNat w then .fin else .agg := by
    by_cases h : s.len = 0#32
    · simp [h, wordCount_zero]
    · have hn : s.len.toNat ≠ 0 := fun h0 => h (BitVec.eq_of_toNat_eq h0)
      rw [if_neg h, if_neg (wordCount_pos w (Nat.pos_of_ne_zero hn)).ne]
  rw [afterWords, ← hpos, ← hstage]
  rfl

section
variable {w : Width} {s : State} (hn : s.len.toNat ≤ 2 ^ 32 - 4)
include hn

theorem afterWords_pLen (k : Nat) : (afterWords w s k).pLen.toNat = s.len.toNat + padCount s.len.toNat w := by
  have hlt := wordCount_mul_nb_lt w hn
  rw [wordCount_mul_nb] at hlt
  change (s.len + BitVec.ofNat 32 (padCount s.len.toNat w)).toNat = _
  rw [BitVec.toNat_add, BitVec.toNat_ofNat]
  omega

theorem afterWords_pos {k : Nat} (hk : k ≤ wordCount s.len.toNat w) : (afterWords w s k).pos.toNat = k * w.nb :=
  Nat.mod_eq_of_lt ((Nat.mul_le_mul_right _ hk).trans_lt (wordCount_mul_nb_lt w hn))

/-- One AGG step adds the next word, and the last one leads to FIN. -/
theorem afterWords_succ {k : Nat} (hk : k < wordCount s.len.toNat w) :
    afterWords w s (k + 1) = aggStep (afterWords w s k) := by
  have hpLen := afterWords_pLen (w := w) hn k
  have hposNat := afterWords_pos hn hk.le
  have hacc : accumulate w (sumAfter (inputBytes s s.len.toNat) w k) (nextWord (afterWords w s k)) =
      sumAfter (inputBytes s s.len.toNat) w (k + 1) :=
    congrArg (accumulate w _) (nextWord_eq_wordOf hposNat hpLen hk)
  have hpos : BitVec.ofNat 32 (k * w.nb) + BitVec.ofNat 32 w.nb = BitVec.ofNat 32 ((k + 1) * w.nb) := by
    rw [← BitVec.ofNat_add, Nat.succ_mul]
  have hlast : (afterWords w s k).pLen.toNat ≤ (afterWords w s k).pos.toNat + w.nb ↔
      k + 1 = wordCount s.len.toNat w := by
    rw [hpLen, hposNat, ← wordCount_mul_nb, ← Nat.succ_mul, Nat.mul_le_mul_right_iff w.nb_pos]
    omega
  rw [afterWords, ← hacc, ← hpos, ← if_congr hlast rfl rfl]
  rfl

theorem engineTurns_accepted {k : Nat} (hk : k ≤ wordCount s.len.toNat w) :
    engineTurns (k + 1) (acceptCompute w s) = afterWords w s k := by
  induction k with
  | zero => exact (engineStep_of_pad rfl).trans (afterWords_zero w s).symm
  | succ k ih =>
    have hlt : k < wordCount s.len.toNat w := hk
    rw [engineTurns_succ, ih hlt.le, engineStep_of_agg (if_neg hlt.ne), afterWords_succ hn hlt]

theorem engineTurns_accepted_finished :
    engineTurns (wordCount s.len.toNat w + 2) (acceptCompute w s) = finished w s := by
  rw [engineTurns_succ, engineTurns_accepted hn le_rfl, engineStep_of_fin (if_pos rfl), finished]

end

/-! ## The outcome of a computation -/

theorem finished_result (w : Width) (s : State) :
    (finished w s).result = checksum (inputBytes s s.len.toNat) w := by
  rw [checksum, length_inputBytes]
  rfl

/-- What a COMPUTE of width w that finished leaves beside the sum (R133, R95). -/
theorem finished_registers (w : Width) (s : State) :
    (finished w s).acc = (finished w s).result ∧ (finished w s).count = s.len ∧
      (finished w s).padN.toNat = padCount s.len.toNat w ∧
      (finished w s).status = { s.status with busy := false, done := true, err := false, errCode := 0#4 } ∧
      (finished w s).stage = .idle ∧ (finished w s).len = s.len ∧ ∀ a, memRead a (finished w s) = memRead a s := by
  have hpad : (finished w s).padN.toNat = padCount s.len.toNat w :=
    Nat.mod_eq_of_lt ((padCount_lt_nb _ w).trans_le w.nb_le_four)
  exact ⟨rfl, rfl, hpad, rfl, rfl, rfl, memRead_congr rfl rfl rfl⟩

theorem run_accepted {w : Width} {s : State} (hn : s.len.toNat ≤ 2 ^ 32 - 4) {k : Nat}
    (hk : k ≤ wordCount s.len.toNat w) :
    Host.Core.run Sys2Proof.core (k + 1) { acceptCompute w s with agenda := [] } =
      .next (afterWords w { s with agenda := [] } k) :=
  (run_of_agenda_nil (k + 1) rfl).trans
    (congrArg Host.Outcome.next (engineTurns_accepted (s := { s with agenda := [] }) hn hk))

theorem run_accepted_finished (w : Width) {s : State} (hn : s.len.toNat ≤ 2 ^ 32 - 4) :
    Host.Core.run Sys2Proof.core (wordCount s.len.toNat w + 2) { acceptCompute w s with agenda := [] } =
      .next (finished w { s with agenda := [] }) :=
  (run_of_agenda_nil _ rfl).trans
    (congrArg Host.Outcome.next (engineTurns_accepted_finished (s := { s with agenda := [] }) hn))

/-! ## The running sum as the loops of R102 to R104 -/

theorem sumAfter_eq_foldl (B : List Byte) (w : Width) (k : Nat) :
    sumAfter B w k = (List.range k).foldl (fun acc j => accumulate w acc (wordOf B w j)) 0#32 := by
  induction k with
  | zero => rfl
  | succ k ih => rw [List.range_succ, List.foldl_append, ← ih]; rfl

theorem wordOf_w8 {B : List Byte} {k : Nat} (hk : k < B.length) : wordOf B .w8 k = B[k].zeroExtend 32 := by
  simp [wordOf, Width.nb, wordAt_one, padded, padCount, hk]

theorem wordOf_w16 (B : List Byte) (k : Nat) :
    wordOf B .w16 k = ((padded B .w16).getD (2 * k) 0#8).zeroExtend 32 <<< 8
      ||| ((padded B .w16).getD (2 * k + 1) 0#8).zeroExtend 32 := by
  rw [Nat.mul_comm 2 k]
  exact wordAt_two _ _

theorem wordOf_w32 (B : List Byte) (k : Nat) :
    wordOf B .w32 k = ((padded B .w32).getD (4 * k) 0#8).zeroExtend 32 <<< 24
      ||| ((padded B .w32).getD (4 * k + 1) 0#8).zeroExtend 32 <<< 16
      ||| ((padded B .w32).getD (4 * k + 2) 0#8).zeroExtend 32 <<< 8
      ||| ((padded B .w32).getD (4 * k + 3) 0#8).zeroExtend 32 := by
  rw [Nat.mul_comm 4 k]
  exact wordAt_four _ _

/-- R102's loop runs over the bytes, masked after every addition. -/
theorem sumAfter_w8 {B : List Byte} {k : Nat} (hk : k ≤ B.length) :
    sumAfter B .w8 k = (B.take k).foldl (fun acc b => (acc + b.zeroExtend 32) &&& 0xFF#32) 0#32 := by
  induction k with
  | zero => rfl
  | succ k ih =>
    rw [← List.take_concat_get' B k hk, List.foldl_concat, ← ih (Nat.le_of_succ_le hk), ← wordOf_w8 hk]
    rfl

/-- R103's loop. -/
theorem sumAfter_w16 (B : List Byte) (k : Nat) :
    sumAfter B .w16 k = (List.range k).foldl (fun acc j => acc +
      (((padded B .w16).getD (2 * j) 0#8).zeroExtend 32 <<< 8
        ||| ((padded B .w16).getD (2 * j + 1) 0#8).zeroExtend 32)) 0#32 := by
  simp only [sumAfter_eq_foldl, wordOf_w16]
  rfl

/-- R104's loop. -/
theorem sumAfter_w32 (B : List Byte) (k : Nat) :
    sumAfter B .w32 k = (List.range k).foldl (fun acc j => acc +
      (((padded B .w32).getD (4 * j) 0#8).zeroExtend 32 <<< 24
        ||| ((padded B .w32).getD (4 * j + 1) 0#8).zeroExtend 32 <<< 16
        ||| ((padded B .w32).getD (4 * j + 2) 0#8).zeroExtend 32 <<< 8
        ||| ((padded B .w32).getD (4 * j + 3) 0#8).zeroExtend 32)) 0#32 := by
  simp only [sumAfter_eq_foldl, wordOf_w32]
  rfl

theorem wordCount_eq_length_padded_div (B : List Byte) (w : Width) :
    wordCount B.length w = (padded B w).length / w.nb := by
  rw [length_padded, wordCount]

theorem checksum_w8 (B : List Byte) :
    checksum B .w8 = (B.foldl (fun acc b => (acc + b.zeroExtend 32) &&& 0xFF#32) 0#32) &&& 0xFF#32 := by
  have hN : wordCount B.length .w8 = B.length := Nat.div_one _
  rw [checksum, hN, sumAfter_w8 le_rfl, List.take_length]
  rfl

theorem checksum_w16 (B : List Byte) :
    checksum B .w16 = ((List.range ((padded B .w16).length / 2)).foldl (fun acc j => acc +
      (((padded B .w16).getD (2 * j) 0#8).zeroExtend 32 <<< 8
        ||| ((padded B .w16).getD (2 * j + 1) 0#8).zeroExtend 32)) 0#32) &&& 0xFFFF#32 := by
  rw [checksum, wordCount_eq_length_padded_div, sumAfter_w16]
  rfl

theorem checksum_w32 (B : List Byte) :
    checksum B .w32 = (List.range ((padded B .w32).length / 4)).foldl (fun acc j => acc +
      (((padded B .w32).getD (4 * j) 0#8).zeroExtend 32 <<< 24
        ||| ((padded B .w32).getD (4 * j + 1) 0#8).zeroExtend 32 <<< 16
        ||| ((padded B .w32).getD (4 * j + 2) 0#8).zeroExtend 32 <<< 8
        ||| ((padded B .w32).getD (4 * j + 3) 0#8).zeroExtend 32)) 0#32 := by
  rw [checksum, wordCount_eq_length_padded_div, sumAfter_w32]
  exact BitVec.and_allOnes

/-! ## The statements on outcomes -/

theorem padded_inputBytes (s : State) (n : Nat) (w : Width) :
    padded (inputBytes s n) w = inputBytes s n ++ List.replicate (padCount n w) Config.padByte := by
  rw [padded, length_inputBytes]

theorem wordCount_eq_length_padded_inputBytes_div (s : State) (n : Nat) (w : Width) :
    wordCount n w = (padded (inputBytes s n) w).length / w.nb := by
  rw [← wordCount_eq_length_padded_div, length_inputBytes]

/-- Settles O48: n words of one byte each; the state after k words and the state after FIN hold the running sum. -/
theorem computeEightOutcome : Obligations.ComputeEightOutcome := by
  intro s hb hl hm
  have hn : s.len.toNat ≤ 2 ^ 32 - 4 := hl.trans hm
  have hN : wordCount s.len.toNat .w8 = s.len.toNat := Nat.div_one _
  have hfin := run_accepted_finished .w8 hn
  rw [hN] at hfin
  obtain ⟨hacc, hcount, -, hrest⟩ := finished_registers .w8 { s with agenda := [] }
  refine ⟨acceptCompute .w8 s, finished .w8 { s with agenda := [] }, by decide, exec_compute_accepts .w8 hb hl, hfin,
    (finished_result .w8 _).trans (checksum_w8 _), fun k hk => ⟨_, run_accepted hn (hk.trans_eq hN.symm), ?acc⟩,
    hacc, hcount, rfl, hrest⟩
  case acc => exact sumAfter_w8 (B := inputBytes s s.len.toNat) (by simpa using hk)

/-- Settles O49: P is the padded sequence at width 16, and the mask comes at FIN alone. -/
theorem computeSixteenOutcome : Obligations.ComputeSixteenOutcome := by
  intro s hb hl hm
  have hn : s.len.toNat ≤ 2 ^ 32 - 4 := hl.trans hm
  have hN : wordCount s.len.toNat .w16 = (padded (inputBytes s s.len.toNat) .w16).length / 2 :=
    wordCount_eq_length_padded_inputBytes_div s _ .w16
  have hfin := run_accepted_finished .w16 hn
  rw [hN] at hfin
  exact ⟨acceptCompute .w16 s, finished .w16 { s with agenda := [] }, padded (inputBytes s s.len.toNat) .w16, by decide,
    exec_compute_accepts .w16 hb hl, padded_inputBytes s _ .w16, hfin, (finished_result .w16 _).trans (checksum_w16 _),
    fun k hk => ⟨_, run_accepted hn (hk.trans_eq hN.symm), sumAfter_w16 _ k⟩, finished_registers .w16 _⟩

/-- Settles O50: P is the padded sequence at width 32, whose mask keeps every bit. -/
theorem computeThirtyTwoOutcome : Obligations.ComputeThirtyTwoOutcome := by
  intro s hb hl hm
  have hn : s.len.toNat ≤ 2 ^ 32 - 4 := hl.trans hm
  have hN : wordCount s.len.toNat .w32 = (padded (inputBytes s s.len.toNat) .w32).length / 4 :=
    wordCount_eq_length_padded_inputBytes_div s _ .w32
  have hfin := run_accepted_finished .w32 hn
  rw [hN] at hfin
  exact ⟨acceptCompute .w32 s, finished .w32 { s with agenda := [] }, padded (inputBytes s s.len.toNat) .w32, by decide,
    exec_compute_accepts .w32 hb hl, padded_inputBytes s _ .w32, hfin, (finished_result .w32 _).trans (checksum_w32 _),
    finished_registers .w32 _⟩

end Sys2Proof.Machine
end

section
/-! SUPPORT. Command errors (spec/60_exceptions.md): the statement on what raising one writes. -/

namespace Sys2Proof.Machine

/-- Settles O9: whatever its cause, an error is `raiseError` on the state with the turn taken off (`step_of_errs`); the
cases of the error are left only for the table of codes (R161). -/
theorem commandErrorEffect : Obligations.CommandErrorEffect := by
  intro s e h
  rw [step_of_errs h]
  cases e with
  | illegalCmd | domain | length => rfl

end Sys2Proof.Machine
end

section
/-! SUPPORT. Reset and the busy hazard (spec/70_reset_and_hazards.md): a computation runs on through every turn but FIN and
Reset, a write that arrives meanwhile is the busy discard, and what a Reset leaves is a state where the ENGINE rests. -/

namespace Sys2Proof.Machine

theorem engineStep_of_idle {s : State} (h : s.stage = .idle) : engineStep s = s := by
  simp [engineStep, h]

/-- At IDLE the ENGINE has no enabled step, however many turns it gets (R175; log entry 2). -/
theorem engineTurns_of_idle {s : State} (h : s.stage = .idle) (k : Nat) : engineTurns k s = s := by
  induction k with
  | zero => rfl
  | succ k ih => rw [engineTurns_succ, ih, engineStep_of_idle h]

/-- BUSY falls at the FIN step or by a Reset: an acceptance needs BUSY = 0, and no other step writes it (R32). -/
theorem engineAt_fin_or_resetting_of_busy_falls {s t : State} (h : step s = .next t) (hs : s.status.busy = true)
    (ht : t.status.busy = false) : s.engineAt .fin ∨ s.resetting := by
  obtain ⟨-, -, hkeep⟩ := busyWrites.1 s t h
  by_contra hno
  obtain ⟨hf, hr⟩ := not_or.1 hno
  have ha (w : Width) : ¬s.accepts w := fun ⟨⟨_, hidle⟩, _⟩ => by simp [hs] at hidle
  simp [hkeep ha hf hr, hs] at ht

/-- Settles O21: a Reset leaves the ENGINE at IDLE; a CLEAR issued while busy is the busy discard. -/
theorem resetAbandonsComputation : Obligations.ResetAbandonsComputation := by
  refine ⟨fun s => ⟨resetBlock s, rfl, rfl, engineTurns_of_idle rfl⟩,
    fun s t => engineAt_fin_or_resetting_of_busy_falls, fun s t hs h => ?_⟩
  cases (exec_busy .clear hs).symm.trans h
  exact ⟨hs, rfl⟩

/-- Settles O19: each of the three writes stands behind the busy test, which leaves `discard` of it; the other offsets have
no effect in any state, and a read has no busy test. -/
theorem busyWritesDiscarded : Obligations.BusyWritesDiscarded := by
  refine fun s hb => ⟨fun v => issue_busy v hb, fun v => ?len, fun i b => ?buf,
    fun off v => regWrite_no_effect v s, fun off => rfl, fun i => rfl⟩
  case len => exact (takeTurn_regWrite_len v s).trans (congrArg Host.Outcome.next (whenIdle_busy _ hb))
  case buf => exact (takeTurn_bufWrite i b s).trans (congrArg Host.Outcome.next (whenIdle_busy _ hb))

theorem regRead_status_of_reset {s : State} (h : s.status = Status.reset) : regRead 0x08#32 s = 0x00000000#32 := by
  have hread : regRead 0x08#32 s = s.status.word := regRead_offset .status s
  rw [hread, h]
  decide

/-- Settles O20: `resetBlock` takes its registers from the power-up state, so both have the same values. -/
theorem resetValues : Obligations.ResetValues := by
  refine ⟨fun s => ⟨resetBlock s, rfl, rfl⟩, maxLenConstant.1, fun t ht => ?_⟩
  obtain rfl | ⟨s, h⟩ := ht
  case' inr => cases h
  all_goals exact ⟨rfl, regRead_status_of_reset rfl, rfl, rfl, rfl, rfl, rfl, rfl, rfl, rfl, rfl, rfl, rfl, rfl, rfl, rfl⟩

end Sys2Proof.Machine
end

section
/-! SUPPORT. The invariants (spec/10_state.md section 7, spec/41_pipeline.md section 3): that each update of the block keeps
them, and that ACC stays the running sum of the words added. -/

namespace Sys2Proof.Machine

/-! ## The invariants after each update -/

theorem resetBlock_inv {s : State} (h : s.maxLen.toNat ≤ 2 ^ 32 - 4) : (resetBlock s).Inv where
  maxLen_le := h
  inbuf_wf := resetBlock_inbuf_wf s
  busy_iff := by simp
  busy_done := by simp
  err_iff := by simp
  errCode_le := by simp
  acc_pad := by simp
  acc_w8 := by simp
  padded_len := by simp
  agg_pos := by simp
  done_result := by simp
  lenL_le := by simp

theorem CmdError.code_ne_zero (e : CmdError) : e.code ≠ 0#4 := by
  cases e <;> decide

theorem CmdError.code_le (e : CmdError) : e.code.toNat ≤ 3 := by
  cases e <;> decide

theorem accumulate_w8_le (acc word : Word) : (accumulate .w8 acc word).toNat ≤ 0xFF :=
  Nat.le_of_lt_succ (and_mask_lt .w8 (acc + word))

theorem padStep_padN_toNat (s : State) : (padStep s).padN.toNat = padCount s.lenL.toNat s.widthL :=
  Nat.mod_eq_of_lt ((padCount_lt_nb _ _).trans_le (Width.nb_le_four _))

theorem padStep_pLen_toNat {s : State} (h : s.lenL.toNat ≤ 2 ^ 32 - 4) :
    (padStep s).pLen.toNat = s.lenL.toNat + padCount s.lenL.toNat s.widthL := by
  have hpad := (padCount_lt_nb s.lenL.toNat s.widthL).trans_le (Width.nb_le_four _)
  rw [padStep_pLen, BitVec.toNat_add, BitVec.toNat_ofNat]
  omega

namespace State.Inv

variable {s : State}

theorem stage_idle (h : s.Inv) (hb : s.status.busy = false) : s.stage = .idle := by
  by_contra hg
  simp [h.busy_iff.2 hg] at hb

theorem busy (h : s.Inv) (hg : s.stage ≠ .idle) : s.status.busy = true := h.busy_iff.2 hg

theorem not_done (h : s.Inv) (hg : s.stage ≠ .idle) : s.status.done = false :=
  Bool.eq_false_iff.2 fun hd => h.busy_done ⟨h.busy hg, hd⟩

/-- The invariants speak of the block alone. -/
theorem withAgenda (h : s.Inv) (ts : List Turn) : State.Inv { s with agenda := ts } := { h with }

theorem reply (h : s.Inv) (r : Reply) : (Machine.reply r s).Inv := { h with }

theorem discard (h : s.Inv) : (Machine.discard s).Inv := { h with }

theorem setLen (h : s.Inv) (v : Word) : (Machine.setLen v s).Inv := { h with }

theorem memWrite (h : s.Inv) (i : Nat) (b : Byte) : (Machine.memWrite i b s).Inv :=
  { h with inbuf_wf := memWrite_keeps_wf i b h.inbuf_wf }

theorem raiseError (h : s.Inv) (e : CmdError) : (Machine.raiseError e s).Inv :=
  { h with
    busy_done := by simp
    err_iff := by simp [e.code_ne_zero]
    errCode_le := e.code_le
    done_result := by simp }

theorem clearResults (h : s.Inv) : (Machine.clearResults s).Inv :=
  { h with
    busy_done := by simp
    err_iff := by simp
    errCode_le := by simp
    acc_pad := by simp
    acc_w8 := by simp
    done_result := by simp }

theorem acceptCompute (h : s.Inv) (w : Width) (hl : s.len.toNat ≤ s.maxLen.toNat) : (Machine.acceptCompute w s).Inv :=
  { h with
    busy_iff := by simp
    busy_done := by simp
    err_iff := by simp
    errCode_le := by simp
    acc_pad := by simp
    acc_w8 := by simp
    padded_len := by simp
    agg_pos := by simp
    done_result := by simp
    lenL_le := fun _ => hl }

theorem lenL_le_bound (h : s.Inv) (hg : s.stage ≠ .idle) : s.lenL.toNat ≤ 2 ^ 32 - 4 :=
  (h.lenL_le hg).trans h.maxLen_le

theorem padStep (h : s.Inv) (hg : s.stage = .pad) : (Machine.padStep s).Inv :=
  have hrun : s.stage ≠ .idle := by simp [hg]
  have hpLen := padStep_pLen_toNat (h.lenL_le_bound hrun)
  have hstage := padStep_stage_cases s
  { h with
    busy_iff := iff_of_true (h.busy hrun) (ne_idle_of_agg_or_fin hstage)
    acc_pad := fun _ => h.acc_pad hg
    acc_w8 := fun _ _ => by simp [h.acc_pad hg]
    padded_len := fun _ => ⟨padStep_padN_toNat s, by rw [hpLen, padStep_padN_toNat, padStep_lenL]⟩
    agg_pos := fun hagg => by
      have hlen : s.lenL ≠ 0#32 := fun h0 => by simp [h0] at hagg
      have hpos : 0 < s.lenL.toNat := Nat.pos_of_ne_zero fun h0 => hlen (BitVec.eq_of_toNat_eq h0)
      rw [hpLen, padStep_widthL, padStep_pos]
      exact ⟨Nat.mod_eq_zero_of_dvd (nb_dvd_padded_length _ _), Nat.zero_mod _, Nat.add_pos_left hpos _⟩
    lenL_le := fun _ => h.lenL_le hrun }

/-- R125: every word of a run is full. -/
theorem word_full (h : s.Inv) (hg : s.stage = .agg) : s.pos.toNat + s.widthL.nb ≤ s.pLen.toNat := by
  obtain ⟨hpLen, hpos, hlt⟩ := h.agg_pos hg
  obtain ⟨k, hk⟩ := Nat.dvd_of_mod_eq_zero hpos
  obtain ⟨n, hn⟩ := Nat.dvd_of_mod_eq_zero hpLen
  rw [hk, hn, ← Nat.mul_succ]
  rw [hk, hn] at hlt
  exact Nat.mul_le_mul_left _ (Nat.lt_of_mul_lt_mul_left hlt)

theorem aggStep_pos_toNat (h : s.Inv) (hg : s.stage = .agg) :
    (Machine.aggStep s).pos.toNat = s.pos.toNat + s.widthL.nb := by
  have hfull := h.word_full hg
  have hlt := s.pLen.isLt
  rw [aggStep_pos, BitVec.toNat_add, BitVec.toNat_ofNat]
  omega

theorem aggStep (h : s.Inv) (hg : s.stage = .agg) : (Machine.aggStep s).Inv :=
  have hrun : s.stage ≠ .idle := by simp [hg]
  have hstage := aggStep_stage_cases s
  { h with
    busy_iff := iff_of_true (h.busy hrun) (ne_idle_of_agg_or_fin hstage)
    acc_pad := fun hpad => by rw [hpad] at hstage; simp at hstage
    acc_w8 := fun _ hw => by
      rw [aggStep_acc, show s.widthL = .w8 from hw]
      exact accumulate_w8_le _ _
    padded_len := fun _ => h.padded_len (.inl hg)
    agg_pos := fun hagg => by
      obtain ⟨hpLen, hpos, -⟩ := h.agg_pos hg
      have hmore : ¬s.pLen.toNat ≤ s.pos.toNat + s.widthL.nb := fun hle => by simp [hle] at hagg
      rw [h.aggStep_pos_toNat hg]
      exact ⟨hpLen, by simpa using hpos, Nat.not_le.1 hmore⟩
    done_result := fun hd => by simp [h.not_done hrun] at hd
    lenL_le := fun _ => h.lenL_le hrun }

theorem finStep (h : s.Inv) : (Machine.finStep s).Inv :=
  { h with
    busy_iff := by simp
    busy_done := by simp
    acc_pad := by simp
    acc_w8 := by simp
    padded_len := by simp
    agg_pos := by simp
    done_result := fun _ => ⟨and_mask_lt _ _, rfl⟩
    lenL_le := by simp }

end State.Inv

/-- Settles O42: the inversion of a step, and for each update that the invariants hold after it. -/
theorem stepKeepsInvariants : Obligations.StepKeepsInvariants := by
  intro s t hs h
  have hu := hs.withAgenda s.agenda.tail
  cases step_case h with
  | engineIdle | ignored | nop => exact hu
  | pad ht hg => exact hu.padStep hg
  | agg ht hg => exact hu.aggStep hg
  | fin => exact hu.finStep
  | regRead | bufRead => exact hu.reply _
  | reset => exact resetBlock_inv hu.maxLen_le
  | discard => exact hu.discard
  | setLen v => exact hu.setLen v
  | bufWrite i b => exact hu.memWrite i.toNat b
  | illegal | domain | length => exact hu.raiseError _
  | clear => exact hu.clearResults
  | accept v w hi hd hl => exact hu.acceptCompute w hl

/-! ## The running sum (R134) -/

theorem State.Sums.of_idle {s : State} (hg : s.stage = .idle) : s.Sums where
  agg_sum := by simp [hg]
  fin_sum := by simp [hg]

/-- After k words ACC is the running sum of k words, and the stage is FIN when no word is left. -/
theorem State.Sums.of_words {s : State} (k : Nat) (hacc : s.acc = sumAfter (inputBytes s s.lenL.toNat) s.widthL k)
    (hpos : s.stage = .agg → s.pos.toNat = k * s.widthL.nb)
    (hfin : s.stage = .fin → k = wordCount s.lenL.toNat s.widthL) : s.Sums where
  agg_sum hg := by rw [hpos hg, Nat.mul_div_cancel _ s.widthL.nb_pos, hacc]
  fin_sum hg := by rw [← hfin hg, hacc]

theorem padStep_sums {s : State} (h : s.Inv) (hg : s.stage = .pad) : (padStep s).Sums := by
  refine .of_words 0 (h.acc_pad hg) (fun _ => by simp) fun hfin => ?_
  have hlen : s.lenL = 0#32 := by
    by_contra hne
    simp [hne] at hfin
  simp [hlen, wordCount_zero]

theorem aggStep_sums {s : State} (h : s.Inv) (hs : s.Sums) (hg : s.stage = .agg) : (aggStep s).Sums := by
  obtain ⟨-, hmod, -⟩ := h.agg_pos hg
  obtain ⟨hpadN, hpLen⟩ := h.padded_len (.inl hg)
  rw [hpadN] at hpLen
  have hfull := h.word_full hg
  have hpos : s.pos.toNat = s.pos.toNat / s.widthL.nb * s.widthL.nb :=
    (Nat.div_mul_cancel (Nat.dvd_of_mod_eq_zero hmod)).symm
  have hpos' := h.aggStep_pos_toNat hg
  have hacc := hs.agg_sum hg
  generalize s.pos.toNat / s.widthL.nb = k at hpos hacc
  have hend : s.pLen.toNat = wordCount s.lenL.toNat s.widthL * s.widthL.nb := by rw [wordCount_mul_nb, hpLen]
  rw [hpos, ← Nat.succ_mul, hend] at hfull
  have hk : k < wordCount s.lenL.toNat s.widthL := Nat.le_of_mul_le_mul_right hfull s.widthL.nb_pos
  refine .of_words (k + 1) ?acc (fun _ => ?pos) fun hfin => ?fin
  case acc =>
    rw [aggStep_acc, hacc, nextWord_eq_wordOf hpos hpLen hk]
    rfl
  case pos => rw [hpos', hpos, ← Nat.succ_mul, aggStep_widthL]
  case fin =>
    have hle : s.pLen.toNat ≤ s.pos.toNat + s.widthL.nb := by
      by_contra hgt
      simp [hgt] at hfin
    rw [hpos, ← Nat.succ_mul, hend] at hle
    exact Nat.le_antisymm hk (Nat.le_of_mul_le_mul_right hle s.widthL.nb_pos)

/-- Settles O44: PAD starts the sum, AGG adds the next word, FIN and Reset end at IDLE; acceptance leads to PAD, and of
the other turns those that write anything the sum speaks of need an idle ENGINE. -/
theorem stepKeepsRunningSum : Obligations.StepKeepsRunningSum := by
  intro s t hi hs h
  have hui := hi.withAgenda s.agenda.tail
  have hus : State.Sums { s with agenda := s.agenda.tail } := { hs with }
  cases step_case h with
  | pad ht hg => exact padStep_sums hui hg
  | agg ht hg => exact aggStep_sums hui hus hg
  | fin | reset => exact .of_idle rfl
  | accept => exact ⟨nofun, nofun⟩
  | bufWrite i b ht hb => exact .of_idle (hi.stage_idle hb)
  | clear v hc => exact .of_idle (hi.stage_idle hc.2)
  | _ => exact { hus with }

/-! ## Where the invariants hold, and what they give -/

theorem reset_inv : State.reset.Inv :=
  have hmax : State.reset.maxLen.toNat ≤ 2 ^ 32 - 4 := by
    rw [maxLenConstant.1]
    exact Nat.le_of_lt_succ Config.maxLen.isLt
  { resetBlock_inv hmax with }

/-- Settles O43: every field of a reset state has its reset value, and the sum is empty at IDLE. -/
theorem resetMeetsInvariants : Obligations.ResetMeetsInvariants := by
  refine ⟨reset_inv, .of_idle rfl, fun s t hm h => ?_⟩
  cases h
  exact ⟨resetBlock_inv hm, .of_idle rfl⟩

/-- Settles O46: each clause is read off the invariants of the state after; PADN has two bits. -/
theorem invariantsOfRegisters : Obligations.InvariantsOfRegisters := by
  intro s t hs h
  have ht := stepKeepsInvariants s t hs h
  refine ⟨fun hd => (ht.done_result hd).2.symm, ht.busy_done, ht.err_iff, ht.stage_idle, fun hg => ?_⟩
  obtain ⟨-, hpLen⟩ := ht.padded_len hg
  have hpad : t.padN.toNat ≤ 3 := Nat.le_of_lt_succ t.padN.isLt
  have hlen := ht.lenL_le (ne_idle_of_agg_or_fin hg)
  exact ⟨hpLen, hpad, by omega⟩

/-- Settles O24: by `word_full` the partial word never comes, so the word has all the bytes of its width. -/
theorem aggStepAddsFullWord : Obligations.AggStepAddsFullWord := by
  intro s hs hg
  have hfull := hs.word_full hg
  have havail : availBytes s = s.widthL.nb := by
    unfold availBytes
    omega
  have hacc : (aggStep s).acc = accumulate s.widthL s.acc (wordAt (padByteAt s) s.pos.toNat s.widthL.nb s.widthL.nb) := by
    rw [aggStep_acc, nextWord, havail]
  refine ⟨hfull, aggStep s, congrArg Host.Outcome.next (engineStep_of_agg hg), fun hw => ?_, fun hw => ?_, fun hw => ?_⟩
  all_goals rw [hacc, hw]
  · exact congrArg (accumulate .w8 s.acc) (wordAt_one _ _)
  · exact congrArg (accumulate .w16 s.acc) (wordAt_two _ _)
  · exact congrArg (accumulate .w32 s.acc) (wordAt_four _ _)

end Sys2Proof.Machine
end

section
/-! SUPPORT. Runs of an agenda (spec/41_pipeline.md section 3, spec/20_memory.md section 5, spec/30_encoding.md section 5):
every step has a next state, what each step keeps holds at the end of an agenda, and from these the outcome under every
schedule, the number of steps of a computation, and the values a run leaves visible or loaded. -/

namespace Sys2Proof.Machine

/-! ## Steps and runs -/

theorem regWrite_total (off v : Word) (s : State) : ∃ t, regWrite off v s = .next t := by
  obtain ⟨-, h⟩ | ⟨-, h⟩ | ⟨-, -, h⟩ := regWrite_eq off v s
  · rw [h]; exact issue_total v s
  · exact ⟨_, h⟩
  · exact ⟨_, h⟩

theorem takeTurn_total (tn : Turn) (s : State) : ∃ t, takeTurn tn s = .next t := by
  cases tn with
  | engine => exact ⟨_, rfl⟩
  | host op =>
    cases op with
    | regWrite off v => exact regWrite_total off v s
    | regRead | bufRead | bufWrite | reset => exact ⟨_, rfl⟩

/-- Settles O45: a step is its turn, and every turn gives a next state. -/
theorem everyStepHasNext : Obligations.EveryStepHasNext :=
  fun s => step_eq s ▸ takeTurn_total _ _

/-- No turn reads or writes the agenda; the step takes its first turn off. -/
theorem step_agenda {s t : State} (h : step s = .next t) : t.agenda = s.agenda.tail := by
  cases step_case h <;> rfl

theorem turn_of_agenda {s : State} {tn : Turn} {ts : List Turn} (h : s.agenda = tn :: ts) : s.turn = tn := by
  rw [State.turn, h, List.headD_cons]

/-- What every step of an agenda keeps, of the turns left and the state, holds when the agenda is done. -/
theorem run_agenda {P : List Turn → State → Prop}
    (hkeep : ∀ {tn ts s t}, s.agenda = tn :: ts → step s = .next t → P (tn :: ts) s → P ts t)
    {ts : List Turn} {s : State} (ha : s.agenda = ts) (hs : P ts s) :
    ∃ u, Host.Core.run Sys2Proof.core ts.length s = .next u ∧ P [] u := by
  induction ts generalizing s with
  | nil => exact ⟨s, rfl, hs⟩
  | cons tn ts ih =>
    obtain ⟨t, ht⟩ := everyStepHasNext s
    have hta : t.agenda = ts := by rw [step_agenda ht, ha, List.tail_cons]
    rw [List.length_cons, run_succ_of_step _ ht]
    exact ih hta (hkeep ha ht hs)

/-! ## The number of ENGINE steps of a computation -/

theorem afterWords_running (w : Width) (s : State) (k : Nat) :
    (afterWords w s k).stage ≠ .idle ∧ (afterWords w s k).status.busy = true := by
  refine ⟨ne_idle_of_agg_or_fin ?_, rfl⟩
  by_cases h : k = wordCount s.len.toNat w
  · exact .inr (if_pos h)
  · exact .inl (if_neg h)

/-- The ENGINE is busy before each of its N + 2 steps (R132). -/
theorem engineTurns_running {w : Width} {s : State} (hn : s.len.toNat ≤ 2 ^ 32 - 4) {k : Nat}
    (hk : k < wordCount s.len.toNat w + 2) :
    (engineTurns k (acceptCompute w s)).stage ≠ .idle ∧ (engineTurns k (acceptCompute w s)).status.busy = true := by
  cases k with
  | zero => exact ⟨nofun, rfl⟩
  | succ k =>
    rw [engineTurns_accepted hn (by omega)]
    exact afterWords_running w s k

/-- Settles O52: the computation is `afterWords` until its FIN step, whose state is idle. -/
theorem computationStepCount : Obligations.ComputationStepCount := by
  intro s t w hb hl hm h
  cases (exec_compute_accepts w hb hl).symm.trans h
  have hn := hl.trans hm
  rw [engineTurns_accepted_finished hn]
  exact ⟨fun k => engineTurns_running hn, rfl, rfl⟩

/-! ## The outcome under every schedule -/

/-- A state without what the HOST can change while the ENGINE is busy: BUSYERR, its agenda and its replies. -/
def State.engineView (s : State) : State :=
  { s with status := { s.status with busyErr := false }, agenda := [], replies := [] }

/-- The ENGINE reads and writes none of the three. -/
theorem engineView_engineStep (s : State) : (engineStep s).engineView = engineStep s.engineView := by
  have hview : s.engineView.stage = s.stage := rfl
  cases hg : s.stage <;> simp only [engineStep, hview, hg] <;> rfl

/-- While BUSY = 1 every turn but a Reset is, for the ENGINE's view, the ENGINE's step or nothing. -/
theorem engineView_step {s t : State} (h : step s = .next t) (hb : s.status.busy = true) (hr : ¬s.resetting) :
    t.engineView = if s.turn = .engine then engineStep s.engineView else s.engineView := by
  by_cases ht : s.turn = .engine
  · cases h.symm.trans (step_of_engine ht)
    rw [if_pos ht, engineView_engineStep]
    rfl
  · rw [if_neg ht]
    cases step_case h with
    | engineIdle he | pad he | agg he | fin he => exact absurd he ht
    | reset he => exact absurd he hr
    | setLen v he hidle => simp [hb] at hidle
    | bufWrite i b he hidle => simp [hb] at hidle
    | illegal v hi | domain v hi | nop v hi | clear v hi | length v w hi | accept v w hi =>
      have hidle := hi.2
      simp [hb] at hidle
    | regRead | bufRead | discard | ignored => rfl

/-- `u` is on its way from the acceptance `a` of a COMPUTE: `k` ENGINE turns are taken, `n - k` are among the turns `ts`
still to come, which hold no Reset and end with the ENGINE's last turn. -/
structure OnSchedule (a : State) (n k : Nat) (ts : List Turn) (u : State) : Prop where
  view : u.engineView = engineTurns k a.engineView
  left : ts.count .engine + k = n
  no_reset : .host .reset ∉ ts
  last : ts ≠ [] → ts.getLast? = some .engine

theorem OnSchedule.step {a s t : State} {n k : Nat} {tn : Turn} {ts : List Turn}
    (hbusy : ∀ k < n, (engineTurns k a.engineView).status.busy = true) (ha : s.agenda = tn :: ts)
    (h : step s = .next t) (hs : OnSchedule a n k (tn :: ts) s) : ∃ k', OnSchedule a n k' ts t := by
  obtain ⟨hview, hleft, hno, hlast⟩ := hs
  have hlast := hlast (List.cons_ne_nil tn ts)
  have hcount : 0 < (tn :: ts).count .engine := List.count_pos_iff.2 (List.mem_of_getLast? hlast)
  have hb : s.engineView.status.busy = true := hview ▸ hbusy k (by omega)
  have hturn := turn_of_agenda ha
  have hstep := engineView_step h hb fun hr => hno (by rw [hturn.symm.trans hr]; exact List.mem_cons_self)
  rw [hturn, hview] at hstep
  have hno' := fun hm => hno (List.mem_cons_of_mem tn hm)
  have hlast' (hne : ts ≠ []) : ts.getLast? = some .engine := by rwa [List.getLast?_cons_of_ne_nil hne] at hlast
  by_cases ht : tn = .engine
  · subst ht
    rw [if_pos rfl, ← engineTurns_succ] at hstep
    rw [List.count_cons_self] at hleft
    exact ⟨k + 1, hstep, by omega, hno', hlast'⟩
  · rw [if_neg ht] at hstep
    rw [List.count_cons_of_ne ht] at hleft
    exact ⟨k, hstep, hleft, hno', hlast'⟩

/-- At the end of the schedule the ENGINE's view is that of the computation run alone. -/
theorem run_schedule {w : Width} {s : State} {ts : List Turn} (hn : s.len.toNat ≤ 2 ^ 32 - 4)
    (ha : s.agenda = ts) (hno : .host .reset ∉ ts)
    (hcount : ts.count .engine = wordCount s.len.toNat w + 2) (hlast : ts.getLast? = some .engine) :
    ∃ u, Host.Core.run Sys2Proof.core ts.length (acceptCompute w s) = .next u ∧
      u.engineView = finished w s.engineView := by
  have hbusy (k : Nat) (hk : k < wordCount s.len.toNat w + 2) :
      (engineTurns k (acceptCompute w s).engineView).status.busy = true :=
    (engineTurns_running (s := s.engineView) hn hk).2
  have hstart : OnSchedule (acceptCompute w s) (wordCount s.len.toNat w + 2) 0 ts (acceptCompute w s) :=
    ⟨rfl, hcount, hno, fun _ => hlast⟩
  obtain ⟨u, hrun, k, hend⟩ := run_agenda (P := fun ts u => ∃ k, OnSchedule (acceptCompute w s) _ k ts u)
    (fun ha h ⟨_, hs⟩ => hs.step hbusy ha h) (s := acceptCompute w s) ha ⟨0, hstart⟩
  have hk : k = wordCount s.len.toNat w + 2 := by simpa using hend.left
  refine ⟨u, hrun, hend.view.trans ?_⟩
  rw [hk]
  exact engineTurns_accepted_finished (s := s.engineView) hn

/-- Settles O51: the first step is the acceptance; the turns after it end in the ENGINE's view of the computation run
alone, which holds every register of the claim. -/
theorem outcomeUnderEverySchedule : Obligations.OutcomeUnderEverySchedule := by
  intro s w ts hb hl hm hno hcount hlast
  have haccept : State.accepts { s with agenda := .host (.regWrite 0x00#32 (encode w.command)) :: ts } w :=
    ⟨⟨rfl, hb⟩, hl⟩
  obtain ⟨u, hrun, hview⟩ := run_schedule (w := w) (s := { s with agenda := ts }) (hl.trans hm) rfl hno hcount hlast
  have hread {α : Type} (f : State → α) : f u.engineView = f (finished w s.engineView) := congrArg f hview
  obtain ⟨-, -, -, -, -, -, hmem⟩ := finished_registers w s.engineView
  refine ⟨u, (run_succ_of_step _ (step_of_accepts haccept)).trans hrun, ?_, (hread (·.acc)).trans (hread (·.result)).symm,
    hread (·.count), hread (·.status.busy), hread (·.status.done), hread (·.status.err), hread (·.stage), hread (·.len),
    fun a => (hread (memRead a)).trans (hmem a)⟩
  exact (hread (·.result)).trans (finished_result w s.engineView)

/-! ## Results stay visible -/

/-- `u` is idle and shows RESULT = r and COUNT = c, and no turn to come is a Reset, a CLEAR or a COMPUTE. -/
structure ShowsResult (r c : Word) (ts : List Turn) (u : State) : Prop where
  idle : u.stage = .idle
  result : u.result = r
  count : u.count = c
  quiet : ∀ tn ∈ ts, tn ≠ .host .reset ∧ tn ≠ .host (.regWrite 0x00#32 0x00000002#32) ∧
    ∀ w : Width, tn ≠ .host (.regWrite 0x00#32 (encode w.command))

theorem ShowsResult.step {r c : Word} {s t : State} {tn : Turn} {ts : List Turn} (ha : s.agenda = tn :: ts)
    (h : step s = .next t) (hs : ShowsResult r c (tn :: ts) s) : ShowsResult r c ts t := by
  obtain ⟨hidle, hresult, hcount, hquiet⟩ := hs
  obtain ⟨hreset, hclear, hcompute⟩ := hquiet tn List.mem_cons_self
  rw [← turn_of_agenda ha] at hreset hclear hcompute
  have ha' (w : Width) : ¬s.accepts w := fun hw => hcompute w hw.1.1
  obtain ⟨-, hengine, -, -, -, hhost⟩ := stageMoves.2 s t h
  have hkept := step_keeps_result_count h (fun hf => by simp [hf.2] at hidle) (fun hc => hclear hc.1) hreset
  refine ⟨?_, hkept.1.trans hresult, hkept.2.trans hcount, fun tn hm => hquiet tn (List.mem_cons_of_mem _ hm)⟩
  by_cases ht : s.turn = .engine
  · exact hengine ⟨ht, hidle⟩
  · exact (hhost ht ha' hreset).trans hidle

/-- Settles O53: DONE = 1 means an idle ENGINE, which only an acceptance starts again; only FIN, CLEAR and Reset write the
two registers. -/
theorem resultStaysVisible : Obligations.ResultStaysVisible := by
  intro s ts hs hd hts
  have hb : s.status.busy = false := Bool.eq_false_iff.2 fun hb => hs.busy_done ⟨hb, hd⟩
  have hstart : ShowsResult s.result s.count ts { s with agenda := ts } := ⟨hs.stage_idle hb, rfl, rfl, hts⟩
  obtain ⟨u, hrun, hu⟩ := run_agenda ShowsResult.step (s := { s with agenda := ts }) rfl hstart
  exact ⟨u, hrun, hu.result, hu.count⟩

/-! ## LOAD -/

/-- `u` is `s` with the bytes `bs` stored from index `i` on; of the rest, what LOAD is about. -/
structure Stored (i : Nat) (bs : List Byte) (s u : State) : Prop where
  status : u.status = s.status
  maxLen : u.maxLen = s.maxLen
  result : u.result = s.result
  count : u.count = s.count
  below : ∀ j < i, memRead j u = memRead j s
  bytes : ∀ j (h : j < bs.length), memRead (i + j) u = bs[j]

theorem Stored.cons {i : Nat} {b : Byte} {bs : List Byte} {s u : State} (hi : i < s.maxLen.toNat)
    (h : Stored (i + 1) bs (memWrite i b s) u) : Stored i (b :: bs) s u :=
  { h with
    below := fun j hj => (h.below j (Nat.lt_succ_of_lt hj)).trans (memRead_memWrite_other b hj.ne)
    bytes := fun j hj => by
      cases j with
      | zero => exact (h.below i (Nat.lt_succ_self i)).trans (memRead_memWrite_same b hi)
      | succ j =>
        rw [← Nat.succ_add_eq_add_succ]
        exact h.bytes j (Nat.lt_of_succ_lt_succ hj) }

/-- While idle the WB lines of LOAD store their bytes one by one (R78, R100). -/
theorem run_writeLines {i k : Nat} {bs : List Byte} {rest : List Turn} {s : State} (hb : s.status.busy = false)
    (hi : i + bs.length ≤ s.maxLen.toNat)
    (ha : s.agenda = (writeLines i bs).map (fun l => .host l.op) ++ rest) :
    ∃ u, Host.Core.run Sys2Proof.core (bs.length + k) s = Host.Core.run Sys2Proof.core k u ∧ u.agenda = rest ∧
      Stored i bs s u := by
  induction bs generalizing i s with
  | nil => exact ⟨s, by rw [List.length_nil, Nat.zero_add], ha, rfl, rfl, rfl, rfl, fun _ _ => rfl, nofun⟩
  | cons b bs ih =>
    rw [List.length_cons] at hi
    have hindex : (BitVec.ofNat 32 i).toNat = i := Nat.mod_eq_of_lt (by have := s.maxLen.isLt; omega)
    have hturn : s.turn = .host (.bufWrite (BitVec.ofNat 32 i) b) := turn_of_agenda ha
    have hstep : step s = .next (memWrite i b { s with agenda := s.agenda.tail }) := by
      rw [step_of_bufWrite hturn, hindex]
      exact congrArg Host.Outcome.next (whenIdle_idle _ hb)
    have hnext : s.agenda.tail = (writeLines (i + 1) bs).map (fun l => .host l.op) ++ rest := by rw [ha]; rfl
    have hcap : i + 1 + bs.length ≤ s.maxLen.toNat := by omega
    have hlt : i < s.maxLen.toNat := by omega
    obtain ⟨u, hrun, hua, hu⟩ := ih (s := memWrite i b { s with agenda := s.agenda.tail }) hb hcap hnext
    have hu' : Stored i (b :: bs) { s with agenda := s.agenda.tail } u := hu.cons hlt
    refine ⟨u, ?_, hua, { hu' with }⟩
    rw [List.length_cons, Nat.succ_add, run_succ_of_step _ hstep, hrun]

theorem Stored.inputBytes {bs : List Byte} {s u : State} (h : Stored 0 bs s u) :
    Machine.inputBytes u bs.length = bs := by
  refine List.ext_getElem (length_inputBytes _ _) fun j _ hj => ?_
  simpa [Machine.inputBytes] using h.bytes j hj

/-- Settles O54: the WB lines store the bytes one by one, and the last line writes their number to LEN. -/
theorem loadFillsBuffer : Obligations.LoadFillsBuffer := by
  intro s bs hb hl
  have hagenda : (loadLines bs).map (fun l => Turn.host l.op) = (writeLines 0 bs).map (fun l => .host l.op) ++
      [.host (.regWrite 0x04#32 (BitVec.ofNat 32 bs.length))] := by
    rw [loadLines, List.map_append]
    rfl
  obtain ⟨u, hrun, hua, hu⟩ := run_writeLines (k := 1)
    (s := { s with agenda := (loadLines bs).map (fun l => .host l.op) }) hb (by simpa using hl) hagenda
  have hstep := step_of_regWrite_len_idle (turn_of_agenda hua) ((congrArg Status.busy hu.status).trans hb)
  have hlen : (BitVec.ofNat 32 bs.length).toNat = bs.length := Nat.mod_eq_of_lt (hl.trans_lt s.maxLen.isLt)
  exact ⟨_, hrun.trans (run_succ_of_step 0 hstep), hlen, hu.inputBytes, hu.status, hu.maxLen, hu.result, hu.count⟩

end Sys2Proof.Machine
end

section
/-! SUPPORT. Command words, and what commands, ENGINE steps and steps leave unchanged (spec/20_memory.md,
spec/30_encoding.md, spec/40_commands.md, spec/10_state.md sections 4 to 6). -/

namespace Sys2Proof.Machine

/-! ## Command words -/

/-- Settles O3: a word is its fields, and the fields that decode to a command are its own. -/
theorem legalWordsAreExactlyTheFive : Obligations.LegalWordsAreExactlyTheFive :=
  fun _ _ => decode_eq_command_iff

/-- Settles O4: each rejection of the decoder is one row of the table of causes. -/
theorem errorWordCauses : Obligations.ErrorWordCauses :=
  fun _ => ⟨decode_eq_illegal_iff, decode_eq_domain_iff⟩

/-- Settles O1: the legal words are the encodings of their commands, the others have a cause of R161. -/
theorem commandWordsDecode : Obligations.CommandWordsDecode :=
  ⟨decode_encode .nop, decode_encode .compute8, decode_encode .compute16, decode_encode .compute32,
    decode_encode .clear, decode_eq_domain_iff.2 (by unfold DomainWord; decide),
    decode_eq_illegal_iff.2 (.inl (by decide)), decode_eq_illegal_iff.2 (.inr (.inr (by decide)))⟩

theorem decodeTableWord_eq_some {nbits w : Nat} {i : Instr} (h : decodeTableWord nbits w = some i) :
    decode (BitVec.ofNat 32 (w % 2 ^ nbits)) = .command i := by
  unfold decodeTableWord at h
  split at h <;> cases h
  assumption

/-- Settles O12: the placed word is the first turn, a write to CMD; while BUSY = 1 both sides discard. -/
theorem fetchedWordRuns : Obligations.FetchedWordRuns := by
  intro s w i h
  have hstep : step (s.withFetchWord 32 w) = issue (BitVec.ofNat 32 (w % 2 ^ 32)) s :=
    step_cons (s := s.withFetchWord 32 w) rfl
  rw [hstep]
  cases hb : s.status.busy with
  | true => rw [issue_busy _ hb, exec_busy i hb]
  | false => exact issue_of_decode_command hb (decodeTableWord_eq_some h)

/-! ## Reads -/

/-- R31, bit by bit: the five fields have 2^8 values together. -/
theorem Status.word_bits (busy done err busyErr : Bool) (errCode : BitVec 4) :
    let st : Status := ⟨busy, done, err, busyErr, errCode⟩
    st.word.getLsbD 0 = busy ∧ st.word.getLsbD 1 = done ∧ st.word.getLsbD 2 = err ∧ st.word.getLsbD 3 = busyErr ∧
      st.word.extractLsb' 4 4 = errCode ∧ st.word.extractLsb' 8 24 = 0#24 := by
  revert busy done err busyErr errCode
  decide

/-- Settles O14: a read at 0x08 is the word of STATUS. -/
theorem statusWordBits : Obligations.StatusWordBits := by
  intro s
  have hread : regRead 0x08#32 s = s.status.word := regRead_offset .status s
  rw [hread]
  exact Status.word_bits _ _ _ _ _

/-- Settles O17: a read adds its reply; out of range MemRead is 0, and below LEN_L it is the ENGINE's byte. -/
theorem bufReadEffect : Obligations.BufReadEffect :=
  fun _ _ => ⟨rfl, fun h => if_neg (Nat.not_lt.2 h), fun h => if_pos h⟩

/-! ## What a command leaves unchanged -/

theorem commandEffect_cases (i : Instr) (s : State) :
    (i = .nop ∧ commandEffect i s = s) ∨ (i = .clear ∧ commandEffect i s = clearResults s) ∨
      ∃ w : Width, i = w.command ∧ commandEffect i s = issueCompute w s := by
  cases i with
  | nop => exact .inl ⟨rfl, rfl⟩
  | clear => exact .inr (.inl ⟨rfl, rfl⟩)
  | compute8 => exact .inr (.inr ⟨.w8, rfl, rfl⟩)
  | compute16 => exact .inr (.inr ⟨.w16, rfl, rfl⟩)
  | compute32 => exact .inr (.inr ⟨.w32, rfl, rfl⟩)

/-- Everything a command can do, whatever the state (R92 to R96). -/
inductive ExecCase (s : State) : Instr → State → Prop where
  | discard (i : Instr) : ExecCase s i (discard s)
  | nop : ExecCase s .nop s
  | clear : ExecCase s .clear (clearResults s)
  | length (w : Width) : ExecCase s w.command (raiseError .length s)
  | accept (w : Width) : ExecCase s w.command (acceptCompute w s)

theorem exec_case {i : Instr} {s t : State} (h : exec i s = .next t) : ExecCase s i t := by
  cases hb : s.status.busy with
  | true =>
    cases (exec_busy i hb).symm.trans h
    exact .discard i
  | false =>
    cases (exec_idle i hb).symm.trans h
    obtain ⟨rfl, h⟩ | ⟨rfl, h⟩ | ⟨w, rfl, h⟩ := commandEffect_cases i s <;> rw [h]
    · exact .nop
    · exact .clear
    · obtain ⟨-, h⟩ | ⟨-, h⟩ := issueCompute_cases w s <;> rw [h]
      · exact .length w
      · exact .accept w

theorem Width.command_ne (w : Width) : w.command ≠ .nop ∧ w.command ≠ .clear := by
  cases w <;> decide

/-- Settles O10: the five cases of a command; a COMPUTE is neither NOP nor CLEAR. -/
theorem commandFrame : Obligations.CommandFrame := by
  intro i s t h
  cases exec_case h with
  | discard | nop =>
    exact ⟨⟨rfl, rfl, memRead_congr rfl rfl rfl, rfl, rfl, rfl, rfl, rfl⟩, fun _ => ⟨rfl, rfl⟩,
      fun _ => ⟨rfl, rfl, rfl, rfl⟩, fun _ => ⟨rfl, rfl, rfl, rfl⟩⟩
  | clear =>
    exact ⟨⟨rfl, rfl, memRead_congr rfl rfl rfl, rfl, rfl, rfl, rfl, rfl⟩, fun hne => absurd rfl hne,
      fun _ => ⟨rfl, rfl, rfl, rfl⟩, nofun⟩
  | length w | accept w =>
    obtain ⟨hnop, hclear⟩ := w.command_ne
    exact ⟨⟨rfl, rfl, memRead_congr rfl rfl rfl, rfl, rfl, rfl, rfl, rfl⟩, fun _ => ⟨rfl, rfl⟩,
      fun hi => absurd hi (not_or.2 ⟨hnop, hclear⟩), fun hi => absurd hi hnop⟩

/-! ## What an ENGINE turn does and leaves unchanged -/

theorem takeTurn_engine (s : State) : takeTurn .engine s = .next (engineStep s) := rfl

/-- Settles O28: each of the three steps keeps them, and at IDLE nothing moves. -/
theorem engineFrame : Obligations.EngineFrame := by
  intro s t h
  cases h
  obtain ⟨-, h⟩ | ⟨-, h⟩ | ⟨-, h⟩ | ⟨hg, h⟩ := engineStep_cases s <;> rw [h]
  case inr.inr.inr =>
    exact ⟨rfl, rfl, memRead_congr rfl rfl rfl, rfl, rfl, rfl, rfl, rfl, fun hne => absurd hg hne⟩
  all_goals exact ⟨rfl, rfl, memRead_congr rfl rfl rfl, rfl, rfl, rfl, rfl, rfl, fun _ => ⟨rfl, rfl, rfl⟩⟩

/-- An enabled ENGINE step changes the state: it moves STAGE or POS. -/
theorem engineStep_ne {s : State} (hg : s.stage ≠ .idle) : engineStep s ≠ s := by
  intro heq
  obtain ⟨hs, h⟩ | ⟨hs, h⟩ | ⟨hs, h⟩ | ⟨hs, h⟩ := engineStep_cases s <;> rw [h] at heq
  · exact hg hs
  · have hstage := padStep_stage_cases s
    rw [heq, hs] at hstage
    simp at hstage
  · have hpos : s.pos + BitVec.ofNat 32 s.widthL.nb = s.pos := congrArg State.pos heq
    have hnb : BitVec.ofNat 32 s.widthL.nb ≠ 0#32 := by cases s.widthL <;> decide
    exact hnb (by simpa using hpos)
  · have hstage : Stage.idle = s.stage := congrArg State.stage heq
    exact hg hstage.symm

theorem eq_zero_iff_toNat {v : Word} : v = 0#32 ↔ v.toNat = 0 :=
  BitVec.toNat_inj.symm

/-- Settles O22: the PAD step is R130's with its sum over the naturals. -/
theorem padStepEffect : Obligations.PadStepEffect := by
  refine fun s => ⟨fun hg => ?_, fun hg => ⟨_, rfl, engineStep_ne hg⟩, fun hg => ?_⟩
  · exact congrArg Host.Outcome.next (engineStep_of_idle hg)
  · rw [takeTurn_engine, engineStep_of_pad hg, padStep, BitVec.ofNat_add, BitVec.ofNat_toNat, BitVec.setWidth_eq,
      if_congr eq_zero_iff_toNat rfl rfl]

/-- Settles O23: the AGG step is R131's with POS summed over the naturals. -/
theorem aggStepEffect : Obligations.AggStepEffect := by
  intro s hg
  have hpos : s.pos + BitVec.ofNat 32 s.widthL.nb = BitVec.ofNat 32 (s.pos.toNat + s.widthL.nb) := by
    rw [BitVec.ofNat_add, BitVec.ofNat_toNat, BitVec.setWidth_eq]
  have hacc : accumulate s.widthL s.acc (nextWord s) =
      if s.widthL = .w8 then
        (s.acc + wordAt (padByteAt s) s.pos.toNat 1 (min 1 (s.pLen.toNat - s.pos.toNat))) &&& 0xFF#32
      else
        s.acc + wordAt (padByteAt s) s.pos.toNat s.widthL.nb (min s.widthL.nb (s.pLen.toNat - s.pos.toNat)) := by
    unfold accumulate nextWord availBytes
    cases s.widthL <;> rfl
  rw [takeTurn_engine, engineStep_of_agg hg, aggStep, hacc, hpos, hg]

/-! ## Who writes INBUF, PADN, PLEN and POS -/

/-- Settles O34: by the inversion of a step only an idle BufWrite and a Reset touch INBUF; a BufWrite out of range is no
write. -/
theorem inbufWrites : Obligations.InbufWrites := by
  refine fun s t h => ⟨fun i b ht hb hi => ?write, fun hr hw j => ?kept⟩
  case write =>
    have hstep : step s = .next (memWrite i.toNat b { s with agenda := s.agenda.tail }) :=
      (step_of_bufWrite ht).trans (congrArg Host.Outcome.next (whenIdle_idle _ hb))
    cases h.symm.trans hstep
    exact ⟨memRead_memWrite_same b hi, fun j hj => memRead_memWrite_other b hj⟩
  case kept =>
    cases step_case h with
    | reset ht => exact absurd ht hr
    | bufWrite i b ht hb =>
      have hout : s.maxLen.toNat ≤ i.toNat := (hw i b ht).resolve_left (by simp [hb])
      rw [memWrite_out_of_range (s := { s with agenda := s.agenda.tail }) b hout]
      exact memRead_congr rfl rfl rfl j
    | _ => exact memRead_congr rfl rfl rfl j

/-- Settles O41: the PAD and AGG steps and Reset by their next states, the rest by the inversion of a step; LEN_L + PADN
fits by the bound of LEN_L. -/
theorem paddingRegisterWrites : Obligations.PaddingRegisterWrites := by
  refine ⟨rfl, rfl, rfl, fun s t h => ⟨fun hp => ?_, fun ha => ?_, fun hr => ?_, fun hp ha hr => ?_⟩⟩
  · cases h.symm.trans (step_of_engineAt_pad hp)
    have hpad := padStep_padN_toNat { s with agenda := s.agenda.tail }
    refine ⟨hpad, rfl, fun hs => ?_⟩
    rw [hpad]
    exact padStep_pLen_toNat (hs.lenL_le_bound (by simp [hp.2]))
  · cases h.symm.trans (step_of_engineAt_agg ha)
    exact ⟨rfl, rfl, rfl⟩
  · cases h.symm.trans (step_of_resetting hr)
    exact ⟨rfl, rfl, rfl⟩
  · cases step_case h with
    | pad ht hg => exact absurd ⟨ht, hg⟩ hp
    | agg ht hg => exact absurd ⟨ht, hg⟩ ha
    | reset ht => exact absurd ht hr
    | _ => exact ⟨rfl, rfl, rfl⟩

/-! ## The canonical form of the buffer -/

/-- A canonical buffer lists nothing below its first index. -/
theorem Memory.lookup_eq_none_of_wfFrom {lo cap i : Nat} {m : Memory} (hm : Memory.wfFrom lo cap m = true)
    (hi : i < lo) : m.lookup i = none := by
  induction m generalizing lo with
  | nil => rfl
  | cons c m ih =>
    obtain ⟨hlo, -, hrest⟩ := Memory.wfFrom_cons.1 hm
    rw [Memory.lookup, if_neg (by omega), ih hrest (by omega)]

theorem Memory.lookup_head (c : Host.Cell) (m : Memory) : Memory.lookup c.1 (c :: m) = some c.2 :=
  if_pos rfl

/-- The first index of a canonical buffer is not above that of one which looks up the same. -/
theorem Memory.head_le_of_lookup_eq {lo cap : Nat} {c d : Host.Cell} {m n : Memory}
    (hn : Memory.wfFrom lo cap (d :: n) = true) (h : Memory.lookup c.1 (c :: m) = Memory.lookup c.1 (d :: n)) :
    d.1 ≤ c.1 := by
  by_contra hlt
  obtain ⟨-, hcap, hrest⟩ := Memory.wfFrom_cons.1 hn
  have hnone : Memory.lookup c.1 (d :: n) = none :=
    Memory.lookup_eq_none_of_wfFrom (Memory.wfFrom_cons.2 ⟨le_rfl, hcap, hrest⟩) (Nat.not_le.1 hlt)
  rw [Memory.lookup_head, hnone] at h
  cases h

theorem Memory.eq_of_lookup_eq {lo cap : Nat} {m n : Memory} (hm : Memory.wfFrom lo cap m = true)
    (hn : Memory.wfFrom lo cap n = true) (h : ∀ i, m.lookup i = n.lookup i) : m = n := by
  induction m generalizing n lo with
  | nil =>
    cases n with
    | nil => rfl
    | cons d n => simpa [Memory.lookup] using h d.1
  | cons c m ih =>
    cases n with
    | nil => simpa [Memory.lookup] using h c.1
    | cons d n =>
      have hidx : c.1 = d.1 :=
        le_antisymm (Memory.head_le_of_lookup_eq hm (h d.1).symm) (Memory.head_le_of_lookup_eq hn (h c.1))
      have hbyte : c.2 = d.2 := by simpa [Memory.lookup, hidx] using h c.1
      obtain ⟨-, -, hm'⟩ := Memory.wfFrom_cons.1 hm
      obtain ⟨-, -, hn'⟩ := Memory.wfFrom_cons.1 hn
      rw [← hidx] at hn'
      have hrest (i : Nat) : Memory.lookup i m = Memory.lookup i n := by
        by_cases hi : i < c.1 + 1
        · rw [Memory.lookup_eq_none_of_wfFrom hm' hi, Memory.lookup_eq_none_of_wfFrom hn' hi]
        · have hne : c.1 ≠ i := by omega
          simpa [Memory.lookup, hne, ← hidx] using h i
      rw [Prod.ext hidx hbyte, ih hm' hn' hrest]

/-- Settles O47: the first cell is the one with the least index, so equal lookups give equal lists cell by cell; a step
writes INBUF by MemWrite or empties it. -/
theorem bufferFormIsCanonical : Obligations.BufferFormIsCanonical := by
  refine ⟨fun cap m m' => Memory.eq_of_lookup_eq, fun s t hs h => ?_⟩
  cases step_case h with
  | bufWrite i b => exact memWrite_keeps_wf (s := { s with agenda := s.agenda.tail }) i.toNat b hs
  | reset => exact resetBlock_inbuf_wf _
  | _ => exact hs

end Sys2Proof.Machine
end

section
/-! SUPPORT. The data path as functions (spec/41_pipeline.md sections 1 and 2): padding, word assembly, and the checksum as a
sum over the naturals and as the digits the HOST reports. -/

namespace Sys2Proof.Machine

/-! ## Padding -/

/-- Settles O55: the pad count is below the word size and completes the last word, so it is 0 just when none is begun. -/
theorem padCountRules : Obligations.PadCountRules := by
  refine ⟨rfl, fun n => ⟨rfl, rfl, rfl, fun w => ?_⟩⟩
  have hlt := padCount_lt_nb n w
  have hdvd := nb_dvd_padded_length n w
  refine ⟨hlt, Nat.mod_eq_zero_of_dvd hdvd, ⟨fun h0 => ?_, fun h0 => ?_⟩, by cases w <;> rfl⟩
  · rw [h0] at hdvd
    exact Nat.mod_eq_zero_of_dvd hdvd
  · exact Nat.eq_zero_of_dvd_of_lt ((Nat.dvd_add_right (Nat.dvd_of_mod_eq_zero h0)).1 hdvd) hlt

/-- Settles O56: below LEN_L the byte is of the buffer, from there on it is filler. -/
theorem virtualPaddingIsPaddedSequence : Obligations.VirtualPaddingIsPaddedSequence := by
  intro s i hi
  rw [← getElem?_padded_inputBytes s.widthL hi, padded_inputBytes]
  rfl

/-! ## Words -/

/-- A word depends on the bytes present alone, 0 standing for the others (R125). -/
theorem wordTerms_congr_present {S T : Nat → Byte} {pos nb a b m : Nat}
    (h : ∀ j < m, (if j < a then S (pos + j) else 0x00#8) = if j < b then T (pos + j) else 0x00#8) :
    wordTerms S pos nb a m = wordTerms T pos nb b m := by
  induction m with
  | zero => rfl
  | succ m ih => rw [wordTerms, wordTerms, ih fun j hj => h j (by omega), h m (Nat.lt_succ_self m)]

theorem toNat_zeroExtend_byte (b : Byte) : (b.zeroExtend 32).toNat = b.toNat :=
  BitVec.toNat_setWidth_of_le (by decide)

theorem byte_shifted_lt {b : Byte} {k n : Nat} (h : k + 8 ≤ n) : (b.zeroExtend 32 <<< k).toNat < 2 ^ n := by
  rw [BitVec.toNat_shiftLeft, toNat_zeroExtend_byte, Nat.shiftLeft_eq]
  calc b.toNat * 2 ^ k % 2 ^ 32 ≤ b.toNat * 2 ^ k := Nat.mod_le _ _
    _ < 2 ^ 8 * 2 ^ k := Nat.mul_lt_mul_of_pos_right b.isLt (Nat.two_pow_pos k)
    _ = 2 ^ (k + 8) := by rw [Nat.pow_add, Nat.mul_comm]
    _ ≤ 2 ^ n := Nat.pow_le_pow_right (by decide) h

theorem wordTerms_lt (S : Nat → Byte) (pos nb avail : Nat) {m : Nat} (hm : m ≤ nb) :
    (wordTerms S pos nb avail m).toNat < 2 ^ (8 * nb) := by
  induction m with
  | zero => exact Nat.two_pow_pos _
  | succ m ih =>
    rw [wordTerms, BitVec.toNat_or]
    exact Nat.or_lt_two_pow (ih (Nat.le_of_succ_le hm)) (byte_shifted_lt (by omega))

theorem Width.bits_eq (w : Width) : w.bits = 8 * w.nb := by
  cases w <;> rfl

theorem wordAt_lt (S : Nat → Byte) (pos : Nat) (w : Width) (avail : Nat) :
    (wordAt S pos w.nb avail).toNat < 2 ^ w.bits :=
  w.bits_eq ▸ wordTerms_lt S pos w.nb avail le_rfl

/-- Settles O25: each term of a word is a byte shifted below the word's top; a missing byte is a zero byte. -/
theorem wordAssembly : Obligations.WordAssembly := by
  refine fun S pos => ⟨wordAt_one S pos, wordAt_two S pos, wordAt_four S pos, wordAt_lt S pos, fun w avail _ => ?_⟩
  refine wordTerms_congr_present fun j hj => ?_
  rw [if_pos hj]
  exact if_congr (Nat.add_lt_add_iff_left).symm rfl rfl

/-! ## The checksum as a sum -/

theorem toNat_and_ff (x : Word) : (x &&& 0xFF#32).toNat = x.toNat % 256 :=
  (BitVec.toNat_and _ _).trans (Nat.and_two_pow_sub_one_eq_mod x.toNat 8)

theorem toNat_and_ffff (x : Word) : (x &&& 0xFFFF#32).toNat = x.toNat % 65536 :=
  (BitVec.toNat_and _ _).trans (Nat.and_two_pow_sub_one_eq_mod x.toNat 16)

/-- A loop that adds every byte modulo 256 ends in the byte sum modulo 256, wherever it masks. -/
theorem foldl_toNat_mod {f : Word → Byte → Word} (hf : ∀ a b, (f a b).toNat % 256 = (a.toNat + b.toNat) % 256)
    (B : List Byte) (a : Word) : (B.foldl f a).toNat % 256 = (a.toNat + (B.map (fun b => b.toNat)).sum) % 256 := by
  induction B generalizing a with
  | nil => rfl
  | cons b B ih => rw [List.foldl_cons, ih, List.map_cons, List.sum_cons, Nat.add_mod, hf, ← Nat.add_mod, Nat.add_assoc]

/-- The addition of a byte modulo 2^32 is one modulo 256 (law (e)). -/
theorem toNat_add_byte_mod (a : Word) (b : Byte) : (a + b.zeroExtend 32).toNat % 256 = (a.toNat + b.toNat) % 256 := by
  rw [BitVec.toNat_add, toNat_zeroExtend_byte]
  exact Nat.mod_mod_of_dvd _ (by decide)

/-- Settles O57: both loops are the byte sum modulo 256, whether masked after every addition or once. -/
theorem checksumEightIsByteSum : Obligations.ChecksumEightIsByteSum := by
  intro B
  have hmasked (a : Word) (b : Byte) :
      ((a + b.zeroExtend 32) &&& 0xFF#32).toNat % 256 = (a.toNat + b.toNat) % 256 := by
    rw [toNat_and_ff, Nat.mod_mod, toNat_add_byte_mod]
  have hzero (n : Nat) : ((0#32).toNat + n) % 256 = n % 256 := congrArg (· % 256) (Nat.zero_add n)
  have hsum : (checksum B .w8).toNat = (B.map (fun b => b.toNat)).sum % 256 := by
    rw [checksum_w8, toNat_and_ff, foldl_toNat_mod hmasked, hzero]
  refine ⟨hsum, BitVec.eq_of_toNat_eq ?_⟩
  rw [hsum, toNat_and_ff, foldl_toNat_mod toNat_add_byte_mod, hzero]

/-- At widths 16 and 32 the running sum is the words' sum modulo 2^32 (R127). -/
theorem sumAfter_toNat (B : List Byte) {w : Width} (hw : w ≠ .w8) (k : Nat) :
    (sumAfter B w k).toNat = ((List.range k).map (fun j => (wordOf B w j).toNat)).sum % 2 ^ 32 := by
  induction k with
  | zero => rfl
  | succ k ih =>
    rw [sumAfter, accumulate, if_neg hw, BitVec.toNat_add, ih, List.range_succ, List.map_append, List.sum_append,
      List.map_singleton, List.sum_singleton, Nat.mod_add_mod]

/-- Settles O58: the final mask is a remainder, and 65536 divides 2^32. -/
theorem checksumIsWordSum : Obligations.ChecksumIsWordSum := by
  refine fun B => ⟨?_, ?_⟩
  · rw [checksum, Width.mask, toNat_and_ffff, sumAfter_toNat B (by decide)]
    exact Nat.mod_mod_of_dvd _ (by decide)
  · rw [← sumAfter_toNat B (by decide)]
    exact congrArg BitVec.toNat BitVec.and_allOnes

/-! ## The checksum as digits (R106) -/

/-- The last `n` hexadecimal digits of `r`, read on from `a`. -/
theorem foldl_digits (r : Word) (n a : Nat) :
    ((List.range n).map (fun k => r.extractLsb' (4 * (n - 1 - k)) 4)).foldl (fun a d => a * 16 + d.toNat) a =
      a * 16 ^ n + r.toNat % 16 ^ n := by
  induction n generalizing a with
  | zero => simp [Nat.mod_one]
  | succ n ih =>
    have htail : (List.range n).map ((fun k => r.extractLsb' (4 * (n + 1 - 1 - k)) 4) ∘ Nat.succ) =
        (List.range n).map (fun k => r.extractLsb' (4 * (n - 1 - k)) 4) :=
      List.map_congr_left fun k _ => by simp only [Function.comp_apply]; congr 2; omega
    have hpow : 2 ^ (4 * n) = 16 ^ n := by rw [Nat.pow_mul]
    have hdigit : (r.extractLsb' (4 * n) 4).toNat = r.toNat / 16 ^ n % 16 := by
      rw [BitVec.extractLsb'_toNat, Nat.shiftRight_eq_div_pow, hpow]
    rw [List.range_succ_eq_map, List.map_cons, List.map_map, htail, List.foldl_cons, ih, Nat.add_sub_cancel, Nat.sub_zero,
      hdigit, Nat.pow_succ, Nat.mod_mul]
    ring

theorem Width.pow_bits (w : Width) : 16 ^ (w.bits / 4) = 2 ^ w.bits := by
  cases w <;> decide

/-- Settles O59: the mask bounds the checksum by the width, and below that bound its digits lose nothing. -/
theorem checksumFitsWidth : Obligations.ChecksumFitsWidth := by
  intro w
  have hempty : checksum [] w = 0#32 := by
    rw [checksum, List.length_nil, wordCount_zero]
    exact BitVec.zero_and
  refine ⟨hempty, fun B => ?_⟩
  have hlt : (checksum B w).toNat < 2 ^ w.bits := and_mask_lt w _
  refine ⟨hlt, by simp [reportDigits], ?_⟩
  rw [reportDigits, foldl_digits, w.pow_bits, Nat.mod_eq_of_lt hlt, Nat.zero_mul, Nat.zero_add]

end Sys2Proof.Machine
end
